-- ==== Sys2Proof/Word.lean ====
section
/-! DEFINITION. The word type, the value types of 00_scope.md R8 and R9, and their plainest projections. -/

namespace Sys2Proof

/-- A command word, 64 bits (30_encoding.md R80). -/
abbrev Word := BitVec 64

/-- A status code of a response, 8 bits (30_encoding.md R83). -/
abbrev StatusByte := BitVec 8

/-- Whether a sample type is real or complex (00_scope.md R9). -/
inductive Kind where
  | real
  | complex
deriving DecidableEq, Repr, Inhabited

/-- A value of the operand and response channels: an element of `R`, or a pair of them (00_scope.md R9).
The constructor is the value's type, so that a value of the wrong type can be told (30_encoding.md R82). -/
inductive Value where
  | real (v : Rat)
  | complex (re im : Rat)
deriving DecidableEq, Repr, Inhabited

/-- The type of a value. -/
def Value.kind : Value → Kind
  | .real _ => .real
  | .complex _ _ => .complex

/-- The real part; a real value is read as `(r, 0)` (00_scope.md R9, R10). -/
def Value.re : Value → Rat
  | .real v => v
  | .complex a _ => a

/-- The imaginary part; a real value is read as `(r, 0)` (00_scope.md R9). -/
def Value.im : Value → Rat
  | .real _ => 0
  | .complex _ b => b

/-- The zero of a sample type. -/
def Value.zero : Kind → Value
  | .real => .real 0
  | .complex => .complex 0 0

/-- A register array of three `R` values: `LF_B`, `LF_A`, `LF_W` (10_state.md R36). -/
structure Taps where
  c0 : Rat
  c1 : Rat
  c2 : Rat
deriving DecidableEq, Repr, Inhabited

end Sys2Proof
end

