-- ==== Sys2Proof/Syntax.lean ====
section
/-! DEFINITION. The thirteen commands of spec/opcode_table.json, one constructor a row (30_encoding.md R84).
A constructor holds the integer fields of the command word; the value operands travel on the operand channel
(R82), which `State` holds. -/

namespace Sys2Proof

/-- A decoded command word (30_encoding.md R81, R84). Every integer operand is the zero-extended field. -/
inductive Instr where
  /-- CREATE, OP 0x01: `k = A`, `M = B`, `len = C` (42_lifecycle.md R160). -/
  | create (k m len : Nat)
  /-- CREATE_RNYQ, OP 0x02: `k = A`, `M = B`, `type = C[23:16]`, symbol delay `m = C[15:0]` (R166). -/
  | createRnyq (k m ftype symDelay : Nat)
  /-- DESTROY, OP 0x03 (R170). -/
  | destroy
  /-- RESET, OP 0x04 (R175). -/
  | reset
  /-- LOCK, OP 0x05 (43_control.md R190). -/
  | lock
  /-- UNLOCK, OP 0x06 (R191). -/
  | unlock
  /-- SET_RATE, OP 0x07 (R193). -/
  | setRate
  /-- SET_OUTPUT_RATE, OP 0x08: `k_out = C` (R196). -/
  | setOutputRate (kOut : Nat)
  /-- SET_LOOP_BW, OP 0x09 (R199). -/
  | setLoopBw
  /-- GET_TAU, OP 0x0A (R202). -/
  | getTau
  /-- STEP, OP 0x0B (41_stepping.md R130). -/
  | step
  /-- EXECUTE, OP 0x0C: `nx = C` (R139). -/
  | execute (nx : Nat)
  /-- PRINT, OP 0x0D (43_control.md R205). -/
  | print
deriving DecidableEq, Repr

/-- The type of a command's value operands, named as on the channel (30_encoding.md R82). -/
inductive OperandType where
  /-- An element of `R`. -/
  | number
  /-- An input sample, type `S`. -/
  | sample
  /-- A coefficient, type `C`. -/
  | coef
deriving DecidableEq, Repr

end Sys2Proof
end

