-- ==== Sys2Proof/WellFormed.lean ====
section
/-! DEFINITION. Well-formed commands: every integer operand fits its field (00_scope.md R7 "field widths",
30_encoding.md R80). -/

namespace Sys2Proof

/-- Every integer operand of the command fits the field that carries it (30_encoding.md R80, R84). -/
def Instr.wf : Instr → Bool
  | .create k m len => decide (k < 2 ^ 16) && decide (m < 2 ^ 16) && decide (len < 2 ^ 24)
  | .createRnyq k m ftype symDelay =>
    decide (k < 2 ^ 16) && decide (m < 2 ^ 16) && decide (ftype < 2 ^ 8) && decide (symDelay < 2 ^ 16)
  | .destroy => true
  | .reset => true
  | .lock => true
  | .unlock => true
  | .setRate => true
  | .setOutputRate kOut => decide (kOut < 2 ^ 24)
  | .setLoopBw => true
  | .getTau => true
  | .step => true
  | .execute nx => decide (nx < 2 ^ 24)
  | .print => true

end Sys2Proof
end

