-- ==== Sys2Proof/Decode.lean ====
section
/-! DEFINITION. The decoder of a command word and, after it, the encoder (30_encoding.md R80 to R91). -/

namespace Sys2Proof

/-- Why a word spells no command. Both reasons raise Fault(ReservedEncoding). -/
inductive DecodeError where
  /-- `OP = 0x00` or `OP` in 0x0E to 0xFF (30_encoding.md R85). -/
  | illegalOpcode (op : Nat)
  /-- A nonzero must-be-zero field (R86). -/
  | mustBeZero (op : Nat)
deriving DecidableEq, Repr

/-- `w[lo+width-1 : lo]` as an unsigned number (00_scope.md R8). -/
def bitField (w : Word) (lo width : Nat) : Nat := w.toNat / 2 ^ lo % 2 ^ width

/-- `OP = w[63:56]` (30_encoding.md R81). -/
def fieldOp (w : Word) : Nat := bitField w 56 8

/-- `A = w[55:40]` (30_encoding.md R81). -/
def fieldA (w : Word) : Nat := bitField w 40 16

/-- `B = w[39:24]` (30_encoding.md R81). -/
def fieldB (w : Word) : Nat := bitField w 24 16

/-- `C = w[23:0]` (30_encoding.md R81). -/
def fieldC (w : Word) : Nat := bitField w 0 24

/-- `i`, if `fields`, the sum of the must-be-zero fields of the word, is zero (30_encoding.md R86). -/
def ifZero (op fields : Nat) (i : Instr) : Except DecodeError Instr :=
  if fields = 0 then .ok i else .error (.mustBeZero op)

/-- The command a word spells: first `OP` (30_encoding.md R85), then the must-be-zero fields (R86). -/
def decodeWord (w : Word) : Except DecodeError Instr :=
  match fieldOp w with
  | 1 => .ok (.create (fieldA w) (fieldB w) (fieldC w))
  | 2 => .ok (.createRnyq (fieldA w) (fieldB w) (fieldC w / 2 ^ 16) (fieldC w % 2 ^ 16))
  | 3 => ifZero 3 (fieldA w + fieldB w + fieldC w) .destroy
  | 4 => ifZero 4 (fieldA w + fieldB w + fieldC w) .reset
  | 5 => ifZero 5 (fieldA w + fieldB w + fieldC w) .lock
  | 6 => ifZero 6 (fieldA w + fieldB w + fieldC w) .unlock
  | 7 => ifZero 7 (fieldA w + fieldB w + fieldC w) .setRate
  | 8 => ifZero 8 (fieldA w + fieldB w) (.setOutputRate (fieldC w))
  | 9 => ifZero 9 (fieldA w + fieldB w + fieldC w) .setLoopBw
  | 10 => ifZero 10 (fieldA w + fieldB w + fieldC w) .getTau
  | 11 => ifZero 11 (fieldA w + fieldB w + fieldC w) .step
  | 12 => ifZero 12 (fieldA w + fieldB w) (.execute (fieldC w))
  | 13 => ifZero 13 (fieldA w + fieldB w + fieldC w) .print
  | op => .error (.illegalOpcode op)

/-- The command the decoder reads from an opcode-table row's bits; a command is one word, whose bits above
`nbits` are zero (30_encoding.md R88). -/
def decodeTableWord (nbits w : Nat) : Option Instr :=
  (decodeWord (BitVec.ofNat 64 (w % 2 ^ nbits))).toOption

/-- `OP << 56 | A << 40 | B << 24 | C` (30_encoding.md R89). -/
def packWord (op a b c : Nat) : Word :=
  BitVec.ofNat 64 (op * 2 ^ 56 + a * 2 ^ 40 + b * 2 ^ 24 + c)

/-- The value of `OP` that spells the command (30_encoding.md R84). -/
def Instr.opcode : Instr → Nat
  | .create _ _ _ => 1
  | .createRnyq _ _ _ _ => 2
  | .destroy => 3
  | .reset => 4
  | .lock => 5
  | .unlock => 6
  | .setRate => 7
  | .setOutputRate _ => 8
  | .setLoopBw => 9
  | .getTau => 10
  | .step => 11
  | .execute _ => 12
  | .print => 13

/-- The word of a command (30_encoding.md R84, R89; for CREATE_RNYQ `C = type << 16 | m`). -/
def encode (i : Instr) : Word :=
  match i with
  | .create k m len => packWord 1 k m len
  | .createRnyq k m ftype symDelay => packWord 2 k m (ftype * 2 ^ 16 + symDelay)
  | .destroy => packWord 3 0 0 0
  | .reset => packWord 4 0 0 0
  | .lock => packWord 5 0 0 0
  | .unlock => packWord 6 0 0 0
  | .setRate => packWord 7 0 0 0
  | .setOutputRate kOut => packWord 8 0 0 kOut
  | .setLoopBw => packWord 9 0 0 0
  | .getTau => packWord 10 0 0 0
  | .step => packWord 11 0 0 0
  | .execute nx => packWord 12 0 0 nx
  | .print => packWord 13 0 0 0

end Sys2Proof
end

