-- ==== Sys2Proof/Config.lean ====
section
/-! DEFINITION. The implementation parameters of 00_scope.md R7, and the free values: constants without a body, of
which nothing can be proved beyond their type. -/

namespace Sys2Proof

/-- `TYPES`, the (input, coefficient, output) sample types (00_scope.md R7, R9). -/
inductive SampleTypes where
  | rrr
  | crc
  | ccc
deriving DecidableEq, Repr, Inhabited

/-- `NUM`, the number structure `R` (00_scope.md R7, R10). -/
inductive NumMode where
  /-- Exact rationals, the decided default. -/
  | exact
  /-- The binary32 numbers, every result rounded (LOG 1). -/
  | binary32
deriving DecidableEq, Repr

/-- `DERIV`, which function gives `DH` from `H` (00_scope.md R7, 40_components.md R104). -/
inductive DerivSel where
  /-- The reference form of R104. -/
  | reference
  /-- Any other: the free function `Config.derivCoef`. -/
  | external
deriving DecidableEq, Repr

/-- `BANK`, which filter bank the unit holds two instances of (00_scope.md R7, 40_components.md R100; LOG 4). -/
inductive BankSel where
  /-- The reference instance of R101 to R103. -/
  | reference
  /-- Any other that meets the contract of R100: the free function `Config.bankTap` gives its sub-filters. -/
  | external
deriving DecidableEq, Repr

/-- The parameters of 00_scope.md R7 that are plain data. A machine's are fixed: no step changes them (LOG 3). -/
structure Params where
  /-- `NUM`. -/
  num : NumMode
  /-- `TYPES`. -/
  types : SampleTypes
  /-- `BANK`. -/
  bankSel : BankSel
  /-- `DERIV`. -/
  derivSel : DerivSel
  /-- `BT_INIT`. -/
  btInit : Rat
  /-- `OUT_CAP`. -/
  outCap : Nat
  /-- `LOCK_SKIP_COUNTS_OUTPUT`. -/
  lockSkipCountsOutput : Bool
  /-- `DC_WIDTH`. -/
  dcWidth : Nat
  /-- `B_WIDTH`. -/
  bWidth : Nat
deriving DecidableEq, Repr

/-- FREE: `TYPES`, OPEN in 00_scope.md R7 (LOG 3). -/
opaque Config.types : SampleTypes

/-- FREE: any rational; `Config.btInit` confines it to [0,1] (LOG 3). -/
opaque Config.btInitRaw : Rat

/-- FREE: `OUT_CAP - 1` (LOG 3). -/
opaque Config.outCapPred : Nat

/-- FREE: real and imaginary part of tap `j` of sub-filter `i` of the bank that an external `BANK` builds from `M` and a
prototype, as `Config.bankTap M P i j` (40_components.md R100; LOG 4). -/
opaque Config.bankTap : Nat → List Value → Nat → Nat → Rat × Rat

/-- FREE: real and imaginary part of `DH[i]` for the prototype given, under an external `DERIV` (LOG 5). -/
opaque Config.derivCoef : List Value → Nat → Rat × Rat

/-- FREE: `NYQ_DESIGN(type, k, M, m, beta)`: none is `reject` (42_lifecycle.md R168; LOG 7). -/
opaque Config.nyqDesign : Nat → Nat → Nat → Nat → Rat → Option (List (Rat × Rat))

/-- FREE: numerator, less one, of the value a modulus takes where it is irrational (LOG 6). -/
opaque Config.rootNum : Rat → Nat

/-- FREE: denominator, less one, of the value a modulus takes where it is irrational (LOG 6). -/
opaque Config.rootDen : Rat → Nat

/-- `BT_INIT`, OPEN in [0,1] (00_scope.md R7): every rational of [0,1] is possible, no other. -/
def Config.btInit : Rat :=
  if Config.btInitRaw < 0 then 0 else if 1 < Config.btInitRaw then 1 else Config.btInitRaw

/-- The parameters right after power-on: the decided ones at the value 00_scope.md R7 decides, the OPEN ones free. -/
def Config.params : Params where
  num := .exact
  types := Config.types
  bankSel := .reference
  derivSel := .external
  btInit := Config.btInit
  outCap := Config.outCapPred + 1
  lockSkipCountsOutput := false
  dcWidth := 32
  bWidth := 32

end Sys2Proof
end

