-- ==== Sys2Proof/Machine/State.lean ====
section
/-! DEFINITION. The state of the unit as plain data (10_state.md), its command port, its responses, the reasons a step
can stop, and the state right after power-on reset. -/

namespace Sys2Proof.Machine

/-- The errors of 60_exceptions.md R220: ordinary responses, after which the unit goes on. -/
inductive ErrorCode where
  | invalidSamplesPerSymbol
  | invalidFilterLength
  | invalidFilterBankSize
  | invalidOutputRate
  | invalidLoopBandwidth
  | invalidRolloff
  | invalidSymbolDelay
  | designRejected
deriving DecidableEq, Repr

/-- The fault codes of 60_exceptions.md R222: what the latch `FAULT` can hold. -/
inductive FaultCode where
  | reservedEncoding
  | malformedCommand
  | notConfigured
  | nonPositiveStep
  | bankIndexOutOfRange
  | outputOverflow
  | numericRange
  | numericUndefined
deriving DecidableEq, Repr

/-- The status of a response (30_encoding.md R83). -/
inductive Status where
  | ok
  | error (e : ErrorCode)
  | fault (c : FaultCode)
deriving DecidableEq, Repr

/-- The payload of a response (30_encoding.md R83). -/
inductive Payload where
  | none
  /-- One value of type `R`: GET_TAU. -/
  | number (v : Rat)
  /-- A count and a list of samples of type `O`: STEP and EXECUTE. -/
  | outputs (count : Nat) (samples : List Value)
deriving DecidableEq, Repr

/-- One response (30_encoding.md R83). -/
structure Response where
  status : Status
  payload : Payload
deriving DecidableEq, Repr

/-- One command as it arrives on the port: the word and its value operands (30_encoding.md R80, R82). -/
structure Command where
  word : Word
  operands : List Value
deriving DecidableEq, Repr

/-- `MODE` (10_state.md R20). -/
inductive Mode where
  | unconfigured
  | configured
deriving DecidableEq, Repr

/-- The registers of 10_state.md sections 2 to 4, and `LOCKED`: they hold values exactly while a synchronizer object
exists (R20). -/
structure Sync where
  /-- `K` (R23). -/
  k : Nat
  /-- `M` (R24). -/
  m : Nat
  /-- `LEN` (R25). -/
  len : Nat
  /-- `H[0..LEN-1]` (R25). -/
  h : List Value
  /-- `DH[0..LEN-1]` (R26). -/
  dh : List Value
  /-- `K_OUT` (R28). -/
  kOut : Nat
  /-- `RATE` (R29). -/
  rate : Rat
  /-- `DEL` (R30). -/
  del : Rat
  /-- `TAU` (R31). -/
  tau : Rat
  /-- `TAU_DECIM` (R32). -/
  tauDecim : Rat
  /-- `BF` (R33). -/
  bf : Rat
  /-- `B` (R34). -/
  b : Int
  /-- `DC` (R35). -/
  dc : Nat
  /-- `LOCKED` (R21). -/
  locked : Bool
  /-- `LF_B` (R36). -/
  lfB : Taps
  /-- `LF_A` (R36). -/
  lfA : Taps
  /-- `LF_W` (R36). -/
  lfW : Taps
  /-- `MF_HIST`, newest sample first (R37). -/
  mfHist : List Value
  /-- `DMF_HIST`, newest sample first (R37). -/
  dmfHist : List Value
deriving DecidableEq, Repr

/-- The unit. -/
structure State where
  /-- The parameters of 00_scope.md R7, fixed for the machine (LOG 3). -/
  params : Params
  /-- `FAULT` (10_state.md R22). -/
  fault : Option FaultCode
  /-- The synchronizer object; `MODE` is whether it exists (R20). -/
  obj : Option Sync
  /-- The word of the last accepted command, which a fault records (60_exceptions.md R222; LOG 10). -/
  word : Option Word
  /-- The operand channel of the command being run (30_encoding.md R82; LOG 10). -/
  operands : List Value
  /-- Commands on the port, not yet accepted, oldest first (20_memory.md R64; LOG 10). -/
  inbox : List Command
  /-- Responses sent and not yet taken by the host, oldest first (30_encoding.md R83; LOG 10). -/
  outbox : List Response
deriving DecidableEq, Repr

/-- Why a step stops the machine. A fault of 60_exceptions.md R222 is no stop: it is a next state with the latch set
(LOG 8). -/
inductive Fault where
  /-- `step`, at a latched unit: "It is stuck until power-on reset" (60_exceptions.md R224). Safe: the spec's own stop. -/
  | stuck (code : FaultCode)
  /-- STEP and EXECUTE, where the loop of 41_stepping.md R132 would never end: only with `K_OUT = 0`, which no command
  writes (R140; LOG 13). Safe: no run reaches it. -/
  | hang
deriving DecidableEq, Repr

/-- Why a step is refused. -/
inductive Refusal where
  /-- `exec`, for a command without a meaning: none in this model. Safe: the machine stops. -/
  | notModelled (mnemonic : String)
deriving DecidableEq, Repr

/-- The unit right after power-on reset (70_reset_and_hazards.md R250, 10_state.md R45): UNCONFIGURED, no fault, every
other element without a value; nothing has arrived on the port and nothing was sent (LOG 10). -/
def State.reset : State where
  params := Config.params
  fault := none
  obj := none
  word := none
  operands := []
  inbox := []
  outbox := []

end Sys2Proof.Machine
end

