-- ==== Sys2Proof/Machine/Flags.lean ====
section
/-! DEFINITION. The flags of the unit: `MODE`, `LOCKED` and `FAULT`, and no others (10_state.md R40); and the 8-bit
codes of errors and faults (60_exceptions.md R220, R222). -/

namespace Sys2Proof.Machine

/-- `MODE`: CONFIGURED exactly when a synchronizer object exists (10_state.md R20). -/
def State.mode (s : State) : Mode :=
  match s.obj with
  | some _ => .configured
  | none => .unconfigured

/-- `LOCKED`, which holds no value while UNCONFIGURED (10_state.md R21). -/
def State.locked (s : State) : Option Bool := s.obj.map Sync.locked

/-- The error's code (60_exceptions.md R220). -/
def errorByte : ErrorCode → StatusByte
  | .invalidSamplesPerSymbol => 0x01
  | .invalidFilterLength => 0x02
  | .invalidFilterBankSize => 0x03
  | .invalidOutputRate => 0x04
  | .invalidLoopBandwidth => 0x05
  | .invalidRolloff => 0x06
  | .invalidSymbolDelay => 0x07
  | .designRejected => 0x08

/-- The fault's code (60_exceptions.md R222). -/
def faultByte : FaultCode → StatusByte
  | .reservedEncoding => 0x81
  | .malformedCommand => 0x82
  | .notConfigured => 0x83
  | .nonPositiveStep => 0x84
  | .bankIndexOutOfRange => 0x85
  | .outputOverflow => 0x86
  | .numericRange => 0x87
  | .numericUndefined => 0x88

/-- The 8-bit status code of a response (30_encoding.md R83). -/
def statusByte : Status → StatusByte
  | .ok => 0x00
  | .error e => errorByte e
  | .fault c => faultByte c

end Sys2Proof.Machine
end

