-- ==== Sys2Proof/Machine/Arith.lean ====
section
/-! DEFINITION. The numeric primitives over `R` and the sample types (00_scope.md R9, R10), under the exact and under
the binary32 form of `NUM`. -/

namespace Sys2Proof.Machine

/-- `2^e`. -/
def pow2 (e : Int) : Rat :=
  if 0 ≤ e then ((2 ^ e.toNat : Nat) : Rat) else 1 / ((2 ^ (-e).toNat : Nat) : Rat)

/-- `|v|` for a number. -/
def absNum (v : Rat) : Rat := if v < 0 then -v else v

/-- The nearest integer, a half going to the even one. -/
def roundHalfEven (v : Rat) : Int :=
  let f := v.floor
  let r := v - f
  if r < 1 / 2 then f else if 1 / 2 < r then f + 1 else if f % 2 = 0 then f else f + 1

/-- The `e` with `2^e <= |v| < 2^(e+1)`, for a nonzero `v`. -/
def binade (v : Rat) : Int :=
  let e : Int := (Nat.log2 v.num.natAbs : Int) - (Nat.log2 v.den : Int)
  if pow2 e ≤ absNum v then e else e - 1

/-- The binary32 number nearest to `v`, ties to even, or none where that is not finite. PRESUMED: the IEEE 754
default rounding; zero has one sign (LOG 1). -/
def toBinary32 (v : Rat) : Option Rat :=
  if v = 0 then some 0
  else
    let q := max (binade v - 23) (-149)
    let y := (roundHalfEven (v / pow2 q) : Rat) * pow2 q
    if absNum y < pow2 128 then some y else none

/-- The result of an operation whose exact result is `v`: `v` itself, or its binary32 rounding, a result that is not
finite raising Fault(NumericUndefined) (00_scope.md R10). -/
def norm (num : NumMode) (v : Rat) : Except FaultCode Rat :=
  match num with
  | .exact => .ok v
  | .binary32 =>
    match toBinary32 v with
    | some y => .ok y
    | none => .error .numericUndefined

/-- Whether `v` is an element of `R` under `NUM`. -/
def representable (num : NumMode) (v : Rat) : Bool :=
  match num with
  | .exact => true
  | .binary32 => decide (toBinary32 v = some v)

/-- An element of `R` near `v`: `v` itself where it is one. Used for values that come from outside the unit. DESIGN
CHOICE: under binary32 a `v` too large for a finite binary32 number is read as 0 and raises no fault, because what comes
from outside is of type `C` or `R` and so finite (LOG 25). -/
def fit (num : NumMode) (v : Rat) : Rat :=
  match num with
  | .exact => v
  | .binary32 => (toBinary32 v).getD 0

/-- `a + b` over `R` (00_scope.md R10). -/
def addNum (num : NumMode) (a b : Rat) : Except FaultCode Rat := norm num (a + b)

/-- `a - b` over `R` (00_scope.md R10). -/
def subNum (num : NumMode) (a b : Rat) : Except FaultCode Rat := norm num (a - b)

/-- `a * b` over `R` (00_scope.md R10). -/
def mulNum (num : NumMode) (a b : Rat) : Except FaultCode Rat := norm num (a * b)

/-- `a / b` over `R` (00_scope.md R10). "no rule divides by a value that can be zero"; under binary32 a zero divisor,
which an underflow could leave, gives no finite result (LOG 15). -/
def divNum (num : NumMode) (a b : Rat) : Except FaultCode Rat :=
  match num with
  | .exact => .ok (a / b)
  | .binary32 => if b = 0 then .error .numericUndefined else norm .binary32 (a / b)

/-- `round(v)`: the nearest integer, halves away from zero (00_scope.md R10). -/
def roundAway (v : Rat) : Int :=
  if 0 ≤ v then (v + 1 / 2).floor else -((-v + 1 / 2).floor)

/-- `clip(v) = max(-1, min(1, v))` (00_scope.md R10). -/
def clip (v : Rat) : Rat := if v < -1 then -1 else if 1 < v then 1 else v

/-- `f` on each element, the first fault ending it. -/
def mapExcept {α β ε : Type} (f : α → Except ε β) : List α → Except ε (List β)
  | [] => .ok []
  | x :: xs =>
    match f x with
    | .error e => .error e
    | .ok y =>
      match mapExcept f xs with
      | .error e => .error e
      | .ok ys => .ok (y :: ys)

/-- A complex value from its parts, each of which may fault. -/
def complexOf (re im : Except FaultCode Rat) : Except FaultCode Value := do
  let a ← re
  let b ← im
  return .complex a b

/-- A real value from a number that may fault. -/
def realOf (v : Except FaultCode Rat) : Except FaultCode Value := do
  let a ← v
  return .real a

/-- `x + y` on values, complex when either is (00_scope.md R9). -/
def addValue (num : NumMode) (x y : Value) : Except FaultCode Value :=
  match x, y with
  | .real a, .real b => realOf (addNum num a b)
  | x, y => complexOf (addNum num x.re y.re) (addNum num x.im y.im)

/-- `x - y` on values, complex when either is (00_scope.md R9). -/
def subValue (num : NumMode) (x y : Value) : Except FaultCode Value :=
  match x, y with
  | .real a, .real b => realOf (subNum num a b)
  | x, y => complexOf (subNum num x.re y.re) (subNum num x.im y.im)

/-- Real part of a complex product. -/
def mulRe (num : NumMode) (x y : Value) : Except FaultCode Rat := do
  let p ← mulNum num x.re y.re
  let q ← mulNum num x.im y.im
  subNum num p q

/-- Imaginary part of a complex product. -/
def mulIm (num : NumMode) (x y : Value) : Except FaultCode Rat := do
  let p ← mulNum num x.re y.im
  let q ← mulNum num x.im y.re
  addNum num p q

/-- `x * y` on values, complex when either is (00_scope.md R9). -/
def mulValue (num : NumMode) (x y : Value) : Except FaultCode Value :=
  match x, y with
  | .real a, .real b => realOf (mulNum num a b)
  | x, y => complexOf (mulRe num x y) (mulIm num x y)

/-- `x * c` for a number `c`, on each component. -/
def scaleValue (num : NumMode) (x : Value) (c : Rat) : Except FaultCode Value :=
  match x with
  | .real a => realOf (mulNum num a c)
  | .complex a b => complexOf (mulNum num a c) (mulNum num b c)

/-- `x / c` for a number `c`, on each component (00_scope.md R10). -/
def divValue (num : NumMode) (x : Value) (c : Rat) : Except FaultCode Value :=
  match x with
  | .real a => realOf (divNum num a c)
  | .complex a b => complexOf (divNum num a c) (divNum num b c)

/-- `Re(conj(x) * y)` (00_scope.md R10, 40_components.md R107): the product for real values, the sum of the products
of the parts where either is complex. -/
def conjProductRe (num : NumMode) (x y : Value) : Except FaultCode Rat :=
  match x, y with
  | .real a, .real b => mulNum num a b
  | x, y => do
    let p ← mulNum num x.re y.re
    let q ← mulNum num x.im y.im
    addNum num p q

/-- Integer square root by bits, `n` in the number of bits left to try. -/
def isqrtBits (n : Nat) : Nat → Nat → Nat
  | 0, r => r
  | bit + 1, r => isqrtBits n bit (if (r + 2 ^ bit) * (r + 2 ^ bit) ≤ n then r + 2 ^ bit else r)

/-- The largest natural whose square is at most `n`. -/
def isqrt (n : Nat) : Nat := isqrtBits n (Nat.log2 n / 2 + 1) 0

/-- FREE, positive: under exact `NUM`, the value of `sqrt(s)` where that is no rational (LOG 6). -/
def irrationalRoot (s : Rat) : Rat :=
  ((Config.rootNum s + 1 : Nat) : Rat) / ((Config.rootDen s + 1 : Nat) : Rat)

/-- `sqrt(s)` for `s >= 0` under exact `NUM`: exactly where it is rational; else the free value (LOG 6). -/
def root (s : Rat) : Rat :=
  let a := isqrt s.num.toNat
  let b := isqrt s.den
  if a * a = s.num.toNat ∧ b * b = s.den then (a : Rat) / (b : Rat) else irrationalRoot s

/-- The binary32 number nearest to `sqrt(s)` for `s >= 0`, ties to even, or none where that is not finite: the exact
root, which need not be rational, rounded once (LOG 1, LOG 6). -/
def rootBinary32 (s : Rat) : Option Rat :=
  if s = 0 then some 0
  else
    let q := max (binade s / 2 - 23) (-149)
    let t := s / pow2 (2 * q)
    let f := isqrt t.floor.toNat
    let mid : Rat := (f : Rat) + 1 / 2
    let n := if t < mid * mid then f else if mid * mid < t then f + 1 else if f % 2 = 0 then f else f + 1
    let y := (n : Rat) * pow2 q
    if y < pow2 128 then some y else none

/-- `sqrt(s)` for `s >= 0`, as an operation over `R` (93_implementation_defined.md I11; LOG 6). -/
def sqrtNum (num : NumMode) (s : Rat) : Except FaultCode Rat :=
  match num with
  | .exact => .ok (root s)
  | .binary32 =>
    match rootBinary32 s with
    | some y => .ok y
    | none => .error .numericUndefined

end Sys2Proof.Machine
end

