-- ==== Sys2Proof/Machine/Operands.lean ====
section
/-! DEFINITION. The value operands: how many and of what type each command calls for, and the check of what arrived
(30_encoding.md R82; 00_scope.md R9). -/

namespace Sys2Proof.Machine

/-- `S`, the input sample type (00_scope.md R9). -/
def inputKind : SampleTypes → Kind
  | .rrr => .real
  | .crc => .complex
  | .ccc => .complex

/-- `C`, the coefficient type (00_scope.md R9). -/
def coefKind : SampleTypes → Kind
  | .rrr => .real
  | .crc => .real
  | .ccc => .complex

/-- `O`, the output type: complex when the input or the coefficient type is (00_scope.md R9). -/
def outputKind (t : SampleTypes) : Kind :=
  if inputKind t = .complex ∨ coefKind t = .complex then .complex else .real

/-- The combination with the given input and coefficient types; none is the refusal of `RCC` (00_scope.md R9). -/
def sampleTypesOf (input coef : Kind) : Option SampleTypes :=
  match input, coef with
  | .real, .real => some .rrr
  | .complex, .real => some .crc
  | .complex, .complex => some .ccc
  | .real, .complex => none

/-- The kind of value an operand type calls for (30_encoding.md R82). -/
def operandKind (p : Params) : OperandType → Kind
  | .number => .real
  | .sample => inputKind p.types
  | .coef => coefKind p.types

/-- Whether a value is of the operand type: of its kind, its parts elements of `R`. -/
def conforms (p : Params) (t : OperandType) (v : Value) : Bool :=
  decide (v.kind = operandKind p t) && representable p.num v.re && representable p.num v.im

/-- How many value operands a command calls for, "a function of `OP` and `C` alone" (30_encoding.md R82). -/
def operandCount : Instr → Nat
  | .create _ _ len => len
  | .createRnyq _ _ _ _ => 1
  | .destroy => 0
  | .reset => 0
  | .lock => 0
  | .unlock => 0
  | .setRate => 1
  | .setOutputRate _ => 0
  | .setLoopBw => 1
  | .getTau => 0
  | .step => 1
  | .execute nx => nx
  | .print => 0

/-- The type of a command's value operands (30_encoding.md R82; for a command without operands, any). -/
def operandType : Instr → OperandType
  | .create _ _ _ => .coef
  | .createRnyq _ _ _ _ => .number
  | .destroy => .number
  | .reset => .number
  | .lock => .number
  | .unlock => .number
  | .setRate => .number
  | .setOutputRate _ => .number
  | .setLoopBw => .number
  | .getTau => .number
  | .step => .sample
  | .execute _ => .sample
  | .print => .number

/-- Whether the operands that arrived are those the command calls for: the number and the type of each
(30_encoding.md R82). -/
def operandsOk (p : Params) (i : Instr) (ops : List Value) : Bool :=
  decide (ops.length = operandCount i) && ops.all (conforms p (operandType i))

/-- The number on the operand channel of a command with one `R` operand. -/
def numberOperand (ops : List Value) : Rat :=
  match ops with
  | v :: _ => v.re
  | [] => 0

/-- The operands of a command, all zero: what `State.withFetchWord` puts on the channel (LOG 11). -/
def zeroOperands (p : Params) (i : Instr) : List Value :=
  List.replicate (operandCount i) (Value.zero (operandKind p (operandType i)))

/-- A value of the kind from a pair of rationals that came from outside the unit (LOG 5, LOG 7). -/
def valueOfPair (num : NumMode) (kind : Kind) (x : Rat × Rat) : Value :=
  match kind with
  | .real => .real (fit num x.1)
  | .complex => .complex (fit num x.1) (fit num x.2)

end Sys2Proof.Machine
end

