-- ==== Sys2Proof/Machine/Ops.lean ====
section
/-! DEFINITION. The shared operations: accepting a command, responding, raising a fault, the front end every command
goes through, the acceptance of the next command, and the host's side of the port. -/

namespace Sys2Proof.Machine

/-- `respond(code, payload)`: one response, in command order; the command is over and its operands are consumed
(00_scope.md R8, 30_encoding.md R83). -/
def State.respond (s : State) (r : Response) : State :=
  { s with operands := [], outbox := s.outbox ++ [r] }

/-- `respond(OK, payload)`. -/
def State.respondOk (s : State) (p : Payload) : State := s.respond ⟨.ok, p⟩

/-- An error response, which carries no payload (60_exceptions.md R220). -/
def State.respondError (s : State) (e : ErrorCode) : State := s.respond ⟨.error e, .none⟩

/-- `raise Fault(code)`: the latch is set and the fault response sent, with no payload; nothing else changes, and the
word of the command stays recorded (00_scope.md R8, 10_state.md R22, 60_exceptions.md R222, R227). -/
def State.raiseFault (s : State) (c : FaultCode) : State :=
  { s.respond ⟨.fault c, .none⟩ with fault := some c }

/-- Taking a command off the port: its word is recorded and its operands are on the channel (00_scope.md R6). -/
def State.accept (s : State) (c : Command) (rest : List Command) : State :=
  { s with word := some c.word, operands := c.operands, inbox := rest }

/-- How a command that ran on the synchronizer object ended. -/
inductive Ending where
  /-- OK, with the object as it then is and the payload. -/
  | ok (o : Sync) (p : Payload)
  /-- OK with no payload, and no object from then on (42_lifecycle.md R170). -/
  | gone
  /-- An error response, with the object as it then is. -/
  | error (e : ErrorCode) (o : Sync)
  /-- A fault, with the object as written so far (60_exceptions.md R227). -/
  | fault (c : FaultCode) (o : Sync)
  /-- No end (LOG 13). -/
  | hang
deriving DecidableEq, Repr

/-- The outcome of a command that ended so. -/
def finish (s : State) : Ending → Host.Outcome State Fault Refusal
  | .ok o p => .next ({ s with obj := some o }.respondOk p)
  | .gone => .next ({ s with obj := none }.respondOk .none)
  | .error e o => .next ({ s with obj := some o }.respondError e)
  | .fault c o => .next ({ s with obj := some o }.raiseFault c)
  | .hang => .fault .hang

/-- The front end of a command that needs an object: first the operands (30_encoding.md R82), then `MODE`
(60_exceptions.md R223), then `body`, in the order of 30_encoding.md R87. -/
def onObject (i : Instr) (s : State) (body : Sync → Ending) : Host.Outcome State Fault Refusal :=
  match s.obj with
  | none => .next (s.raiseFault (if operandsOk s.params i s.operands then .notConfigured else .malformedCommand))
  | some o =>
    if operandsOk s.params i s.operands then finish s (body o) else .next (s.raiseFault .malformedCommand)

/-- The front end of CREATE and CREATE_RNYQ, which either mode accepts: the operands (30_encoding.md R82), then
`body`. -/
def inAnyMode (i : Instr) (s : State) (body : State) : Host.Outcome State Fault Refusal :=
  .next (if operandsOk s.params i s.operands then body else s.raiseFault .malformedCommand)

/-- Writes that may end in a fault: what was computed, or the fault with the object as written so far. -/
abbrev Writes (α : Type) := Except (FaultCode × Sync) α

/-- A computation that writes nothing, at the object `o`: its fault leaves `o` as it is. -/
def atObj {α : Type} (o : Sync) (x : Except FaultCode α) : Writes α :=
  match x with
  | .ok a => .ok a
  | .error c => .error (c, o)

/-- The ending of a command whose only output is OK with no payload. -/
def endOk (x : Writes Sync) : Ending :=
  match x with
  | .ok o => .ok o .none
  | .error (c, o) => .fault c o

/-- What the unit does next: nothing, because it is latched or because no command waits; a reserved encoding; or a
command. -/
inductive Fetch where
  | stuck (c : FaultCode)
  | idle
  | reserved (s : State)
  | run (i : Instr) (s : State)
deriving DecidableEq, Repr

/-- The acceptance of the next command, in the order of 30_encoding.md R87: the fault latch (60_exceptions.md R224),
then `OP` and the must-be-zero fields (R85, R86). A unit with no command waits, its state unchanged
(60_exceptions.md R235; LOG 9). -/
def fetch (s : State) : Fetch :=
  match s.fault with
  | some c => .stuck c
  | none =>
    match s.inbox with
    | [] => .idle
    | c :: rest =>
      match decodeWord c.word with
      | .error _ => .reserved ((s.accept c rest).raiseFault .reservedEncoding)
      | .ok i => .run i (s.accept c rest)

/-- The command made of a word and, where the word spells a command, operands of zeros (LOG 11). -/
def zeroCommand (p : Params) (w : Word) : Command where
  word := w
  operands :=
    match decodeWord w with
    | .ok i => zeroOperands p i
    | .error _ => []

/-! The host's side of the port: what the outside world can do between commands (LOG 12). -/

/-- The host gives a command: it arrives after those already waiting (20_memory.md R64). -/
def State.submit (s : State) (c : Command) : State := { s with inbox := s.inbox ++ [c] }

/-- The host takes the oldest response (70_reset_and_hazards.md R267). -/
def State.drain (s : State) : Option Response × State :=
  match s.outbox with
  | [] => (none, s)
  | r :: rest => (some r, { s with outbox := rest })

/-- Power-on reset: `MODE <- UNCONFIGURED`, `FAULT <- none`, every other element without a value; the unit then waits
for its first command (70_reset_and_hazards.md R250). The parameters are the machine's and stay; so do the responses
the host has not taken (LOG 12). -/
def State.powerOn (s : State) : State :=
  { State.reset with params := s.params, outbox := s.outbox }

end Sys2Proof.Machine
end

