-- ==== Sys2Proof/Machine/Components.lean ====
section
/-! DEFINITION. The sub-blocks STEP uses (40_components.md): the filter banks, the derivative prototype, the timing error
detector, the loop filter. -/

namespace Sys2Proof.Machine

/-- `L = (LEN - 1) / M`, the sub-filter length (10_state.md R27). -/
def subLength (len m : Nat) : Nat := (len - 1) / m

/-- How many samples a bank's history holds: `L` for the reference instance (10_state.md R37); for an external one `LEN`,
the "FIFO history of the prototype length" of the contract (93_implementation_defined.md I6; LOG 4). -/
def histLength (p : Params) (len m : Nat) : Nat :=
  match p.bankSel with
  | .reference => subLength len m
  | .external => len

/-- Sub-filter `i` of the bank that `BANK` builds from `P` and `M`: for the reference instance `sub_i[j] = P[i + j*M]`
for `0 <= j < L` (40_components.md R101), for an external one free taps of type `C` (R100; LOG 4). -/
def subFilter (p : Params) (proto : List Value) (m i : Nat) : List Value :=
  match p.bankSel with
  | .reference =>
    (List.range (subLength proto.length m)).map (fun j => proto.getD (i + j * m) (Value.zero (coefKind p.types)))
  | .external =>
    (List.range proto.length).map (fun j => valueOfPair p.num (coefKind p.types) (Config.bankTap m proto i j))

/-- `acc` plus the sum of the products of taps and history, in the order of the index `j`. -/
def dotFrom (num : NumMode) (acc : Value) : List Value → List Value → Except FaultCode Value
  | t :: ts, x :: xs =>
    match mulValue num t x with
    | .error c => .error c
    | .ok p =>
      match addValue num acc p with
      | .error c => .error c
      | .ok a => dotFrom num a ts xs
  | _, _ => .ok acc

/-- `BankPush(bank, x)`: `hist <- [x] ++ hist[0 .. L-2]`, on the bank's history (40_components.md R102). -/
def bankPush (hist : List Value) (x : Value) : List Value := (x :: hist).take hist.length

/-- `BankExec(bank, i)` on the bank built from `proto` with history `hist`: the convolution of sub-filter `i` with the
history, for whichever `BANK`, a function of them alone (40_components.md R100, R103). -/
def bankExec (p : Params) (proto : List Value) (m : Nat) (hist : List Value) (i : Int) :
    Except FaultCode Value :=
  if i < 0 ∨ (m : Int) ≤ i then .error .bankIndexOutOfRange
  else dotFrom p.num (Value.zero (outputKind p.types)) (subFilter p proto m i.toNat) hist

/-- `BankReset(bank)`: every element of the history to zero (40_components.md R105). -/
def bankReset (p : Params) (hist : List Value) : List Value :=
  List.replicate hist.length (Value.zero (inputKind p.types))

/-- `d[i] = H[i+1] - H[i-1]`, the indices wrapping around (40_components.md R104). -/
def refDifference (num : NumMode) (proto : List Value) (i : Nat) : Except FaultCode Value :=
  let n := proto.length
  subValue num (proto.getD ((i + 1) % n) default) (proto.getD ((i + n - 1) % n) default)

/-- `|x|` for a real value; for a complex one the square of the modulus, which orders as the modulus does. The square is
exact for either `NUM`: the modulus is one operation, rounded where it is taken (LOG 6). -/
def modulusKey (x : Value) : Rat :=
  match x with
  | .real a => absNum a
  | .complex a b => a * a + b * b

/-- `|H[i] * d[i]|`, or its square for complex values: the product is an operation over `R`. -/
def refProductKey (num : NumMode) (hd : Value × Value) : Except FaultCode Rat := do
  let p ← mulValue num hd.1 hd.2
  return modulusKey p

/-- The largest of a list of numbers that are not negative. -/
def largest (xs : List Rat) : Rat := xs.foldl (fun a b => if a < b then b else a) 0

/-- The modulus a key stands for: "For complex coefficients, `|.|` is the modulus" (40_components.md R104): under exact
`NUM` free where it is irrational, under binary32 the binary32 result (93_implementation_defined.md I11; LOG 6). -/
def modulusOf (num : NumMode) (kind : Kind) (key : Rat) : Except FaultCode Rat :=
  match kind with
  | .real => .ok key
  | .complex => sqrtNum num key

/-- `d[i] * 0.06 / mx` (40_components.md R104). -/
def refScale (num : NumMode) (mx : Rat) (d : Value) : Except FaultCode Value := do
  let c ← norm num (6 / 100)
  let s ← scaleValue num d c
  divValue num s mx

/-- The reference `DERIV` of 40_components.md R104: a central difference with wrap-around ends, scaled so that the
largest `|H[i]*DH[i]|` is 0.06; all zero where `mx = 0`. -/
def refDeriv (num : NumMode) (kind : Kind) (proto : List Value) : Except FaultCode (List Value) := do
  let d ← mapExcept (refDifference num proto) (List.range proto.length)
  let keys ← mapExcept (refProductKey num) (proto.zip d)
  let mx ← modulusOf num kind (largest keys)
  if mx = 0 then return proto.map (fun _ => Value.zero kind) else mapExcept (refScale num mx) d

/-- `DH = DERIV(H)`: the reference form or the external one (00_scope.md R7, 40_components.md R104; LOG 5). -/
def deriveProto (p : Params) (proto : List Value) : Except FaultCode (List Value) :=
  match p.derivSel with
  | .reference => refDeriv p.num (coefKind p.types) proto
  | .external =>
    .ok ((List.range proto.length).map
      (fun i => valueOfPair p.num (coefKind p.types) (Config.derivCoef proto i)))

/-- `TED(mf, dmf) = clip(Re(conj(mf) * dmf))` (40_components.md R107). -/
def ted (num : NumMode) (mf dmf : Value) : Except FaultCode Rat := do
  let e ← conjProductRe num mf dmf
  return clip e

/-- `LFCoeffs(bt)`: the feed-forward and the feed-back coefficients (40_components.md R109). -/
def lfCoeffs (num : NumMode) (bt : Rat) : Except FaultCode (Taps × Taps) := do
  let alpha ← subNum num 1 bt
  let c ← norm num (22 / 100)
  let beta ← mulNum num c bt
  let a ← norm num (1 / 2)
  let b ← norm num (495 / 1000)
  let aAlpha ← mulNum num a alpha
  let a0 ← subNum num 1 aAlpha
  let a1 ← mulNum num (-b) alpha
  return (⟨beta, 0, 0⟩, ⟨a0, a1, 0⟩)

/-- The loop filter's memory after `LFReset()` (40_components.md R112). -/
def lfReset : Taps := ⟨0, 0, 0⟩

/-- `LFExec(x)`: direct form II, normalized by `LF_A[0]`: the output and the new `LF_W` (40_components.md R111). -/
def lfExec (num : NumMode) (lfB lfA lfW : Taps) (x : Rat) : Except FaultCode (Rat × Taps) := do
  let w1 := lfW.c0
  let w2 := lfW.c1
  let r1 ← divNum num lfA.c1 lfA.c0
  let t1 ← mulNum num r1 w1
  let s1 ← subNum num x t1
  let r2 ← divNum num lfA.c2 lfA.c0
  let t2 ← mulNum num r2 w2
  let w0 ← subNum num s1 t2
  let p0 ← mulNum num lfB.c0 w0
  let p1 ← mulNum num lfB.c1 w1
  let p2 ← mulNum num lfB.c2 w2
  let q1 ← addNum num p0 p1
  let q2 ← addNum num q1 p2
  let y ← divNum num q2 lfA.c0
  return (y, ⟨w0, w1, w2⟩)

end Sys2Proof.Machine
end

