-- ==== Sys2Proof/Machine/Control.lean ====
section
/-! DEFINITION. The lock state machine, the rate controller and the queries (43_control.md). -/

namespace Sys2Proof.Machine

/-- LOCK (43_control.md R190). -/
def execLock (s : State) : Host.Outcome State Fault Refusal :=
  onObject .lock s (fun o => .ok { o with locked := true } .none)

/-- UNLOCK (43_control.md R191). -/
def execUnlock (s : State) : Host.Outcome State Fault Refusal :=
  onObject .unlock s (fun o => .ok { o with locked := false } .none)

/-- SET_RATE's body for the rate `r`: it writes `DEL` alone (43_control.md R193). -/
def setRateBody (p : Params) (r : Rat) (o : Sync) : Writes Sync :=
  if r ≤ 0 then .error (.nonPositiveStep, o)
  else do
    let del ← atObj o (divNum p.num 1 r)
    .ok { o with del := del }

/-- SET_RATE (43_control.md R193). -/
def execSetRate (s : State) : Host.Outcome State Fault Refusal :=
  onObject .setRate s (fun o => endOk (setRateBody s.params (numberOperand s.operands) o))

/-- SET_OUTPUT_RATE's writes for a `k_out` that passed its check, in their order (43_control.md R196).
DESIGN CHOICE: under binary32 `DEL` is the rounded `1/RATE`, not the rounded `K/K_OUT` (LOG 26). -/
def setOutputRateBody (p : Params) (kOut : Nat) (o : Sync) : Writes Sync := do
  let o := { o with kOut := kOut }
  let rate ← atObj o (divNum p.num o.kOut o.k)
  let o := { o with rate := rate }
  let del ← atObj o (divNum p.num 1 o.rate)
  .ok { o with del := del }

/-- SET_OUTPUT_RATE (43_control.md R196); the check comes before any write (R192). -/
def execSetOutputRate (kOut : Nat) (s : State) : Host.Outcome State Fault Refusal :=
  onObject (.setOutputRate kOut) s (fun o =>
    if kOut = 0 then .error .invalidOutputRate o else endOk (setOutputRateBody s.params kOut o))

/-- `LFSetCoefficients(bt)`: `LF_W` is kept (40_components.md R113). -/
def lfSetCoefficients (p : Params) (bt : Rat) (o : Sync) : Writes Sync := do
  let coeffs ← atObj o (lfCoeffs p.num bt)
  .ok { o with lfB := coeffs.1, lfA := coeffs.2 }

/-- SET_LOOP_BW's body for the bandwidth `bt` (43_control.md R199); the check comes before any write (R192). -/
def setLoopBwBody (p : Params) (bt : Rat) (o : Sync) : Ending :=
  if bt < 0 ∨ 1 < bt then .error .invalidLoopBandwidth o else endOk (lfSetCoefficients p bt o)

/-- SET_LOOP_BW (43_control.md R199). -/
def execSetLoopBw (s : State) : Host.Outcome State Fault Refusal :=
  onObject .setLoopBw s (fun o => setLoopBwBody s.params (numberOperand s.operands) o)

/-- GET_TAU responds `TAU_DECIM`, not `TAU` (43_control.md R202). -/
def execGetTau (s : State) : Host.Outcome State Fault Refusal :=
  onObject .getTau s (fun o => .ok o (.number o.tauDecim))

/-- PRINT: no register changes (43_control.md R205). -/
def execPrint (s : State) : Host.Outcome State Fault Refusal :=
  onObject .print s (fun o => .ok o .none)

end Sys2Proof.Machine
end

