-- ==== Sys2Proof/Machine/Lifecycle.lean ====
section
/-! DEFINITION. CREATE, CREATE_RNYQ, DESTROY and RESET (42_lifecycle.md). -/

namespace Sys2Proof.Machine

/-- `CreateCheck(k, M, len)`: the first failing check, none for OK (42_lifecycle.md R161). -/
def createCheck (k m len : Nat) : Option ErrorCode :=
  if k < 2 then some .invalidSamplesPerSymbol
  else if len = 0 then some .invalidFilterLength
  else if m = 0 then some .invalidFilterBankSize
  else if len = 1 ∨ (len - 1) % m ≠ 0 then some .invalidFilterLength
  else none

/-- `RnyqCheck(k, M, m, beta)`: the first failing check, none for OK (42_lifecycle.md R167). -/
def rnyqCheck (k m symDelay : Nat) (beta : Rat) : Option ErrorCode :=
  if k < 2 then some .invalidSamplesPerSymbol
  else if m = 0 then some .invalidFilterBankSize
  else if ¬(0 < beta ∧ beta ≤ 1) then some .invalidRolloff
  else if symDelay = 0 then some .invalidSymbolDelay
  else none

/-- `BT_INIT` as the element of `R` that `LFCoeffs` takes (42_lifecycle.md R163). DESIGN CHOICE: under binary32 the
parameter, any rational in [0,1], is rounded (LOG 27). -/
def initialBandwidth (p : Params) : Rat := fit p.num p.btInit

/-- The object a successful CREATE leaves: the coefficient load (42_lifecycle.md R162), then `CreateInit()` (R163).
DESIGN CHOICE: under binary32 `DEL` is the rounded quotient `1/RATE` of the rounded `RATE`, which R163 writes first, and
need not be the `K` of 10_state.md R45 (LOG 26). -/
def newObject (p : Params) (k m : Nat) (h : List Value) : Except FaultCode Sync := do
  let dh ← deriveProto p h
  let rate ← divNum p.num 1 k
  let del ← divNum p.num 1 rate
  let coeffs ← lfCoeffs p.num (initialBandwidth p)
  let hist := List.replicate (histLength p h.length m) (Value.zero (inputKind p.types))
  return {
    k := k, m := m, len := h.length, h := h, dh := dh
    kOut := 1, rate := rate, del := del
    tau := 0, tauDecim := 0, bf := 0, b := 0, dc := 0, locked := false
    lfB := coeffs.1, lfA := coeffs.2, lfW := lfReset
    mfHist := hist, dmfHist := hist }

/-- A construction that did not succeed leaves no object, even if one existed (42_lifecycle.md R164). -/
def State.noObject (s : State) : State := { s with obj := none }

/-- The body of CREATE after the operand check (42_lifecycle.md R160). The object it makes replaces any other whole
(R165). A numeric fault inside it leaves no object (LOG 16). -/
def createBody (k m len : Nat) (h : List Value) (s : State) : State :=
  match createCheck k m len with
  | some e => s.noObject.respondError e
  | none =>
    match newObject s.params k m h with
    | .ok o => { s with obj := some o }.respondOk .none
    | .error c => s.noObject.raiseFault c

/-- The most coefficients `LEN`, 24 bits unsigned, can count (10_state.md R25; LOG 7). -/
def maxLen : Nat := 2 ^ 24 - 1

/-- `NYQ_DESIGN`, its coefficients of type `C`: none is `reject` (42_lifecycle.md R168; LOG 7). -/
def nyqDesign (p : Params) (ftype k m symDelay : Nat) (beta : Rat) : Option (List Value) :=
  (Config.nyqDesign ftype k m symDelay beta).map
    (fun h => (h.take maxLen).map (valueOfPair p.num (coefKind p.types)))

/-- The body of CREATE_RNYQ after the operand check (42_lifecycle.md R166). -/
def rnyqBody (k m ftype symDelay : Nat) (beta : Rat) (s : State) : State :=
  match rnyqCheck k m symDelay beta with
  | some e => s.noObject.respondError e
  | none =>
    match nyqDesign s.params ftype k m symDelay beta with
    | none => s.noObject.respondError .designRejected
    | some h => createBody k m h.length h s

/-- CREATE (42_lifecycle.md R160). -/
def execCreate (k m len : Nat) (s : State) : Host.Outcome State Fault Refusal :=
  inAnyMode (.create k m len) s (createBody k m len s.operands s)

/-- CREATE_RNYQ (42_lifecycle.md R166). -/
def execCreateRnyq (k m ftype symDelay : Nat) (s : State) : Host.Outcome State Fault Refusal :=
  inAnyMode (.createRnyq k m ftype symDelay) s (rnyqBody k m ftype symDelay (numberOperand s.operands) s)

/-- DESTROY (42_lifecycle.md R170). -/
def execDestroy (s : State) : Host.Outcome State Fault Refusal :=
  onObject .destroy s (fun _ => .gone)

/-- RESET's writes, in their order (42_lifecycle.md R175); `DEL` is the rounded `1/RATE` (LOG 26). -/
def resetObject (p : Params) (o : Sync) : Writes Sync := do
  let o := { o with tau := 0, tauDecim := 0, bf := 0, b := 0, dc := 0 }
  let o := { o with lfW := lfReset }
  let o := { o with mfHist := bankReset p o.mfHist, dmfHist := bankReset p o.dmfHist }
  let del ← atObj o (divNum p.num 1 o.rate)
  .ok { o with del := del }

/-- RESET (42_lifecycle.md R175). -/
def execReset (s : State) : Host.Outcome State Fault Refusal :=
  onObject .reset s (fun o => endOk (resetObject s.params o))

end Sys2Proof.Machine
end

