-- ==== Sys2Proof/Machine/Stepping.lean ====
section
/-! DEFINITION. The phase accumulator and decimation state machine: STEP and EXECUTE (41_stepping.md). -/

namespace Sys2Proof.Machine

/-- `B <- round(BF)`, which must fit the signed `B_WIDTH`-bit range (41_stepping.md R136). -/
def fitsB (p : Params) (v : Int) : Bool :=
  decide (-(2 ^ (p.bWidth - 1) : Int) ≤ v) && decide (v < (2 ^ (p.bWidth - 1) : Int))

/-- The iteration tail: `DC`, `TAU`, `BF` and `B`, in that order (41_stepping.md R136). -/
def advance (p : Params) (o : Sync) : Writes Sync := do
  let o := { o with dc := (o.dc + 1) % 2 ^ p.dcWidth }
  let tau ← atObj o (addNum p.num o.tau o.del)
  let o := { o with tau := tau }
  let bf ← atObj o (mulNum p.num o.tau o.m)
  let o := { o with bf := bf }
  if fitsB p (roundAway o.bf) then .ok { o with b := roundAway o.bf } else .error (.numericRange, o)

/-- The unlocked update of an on-time iteration (41_stepping.md R135). -/
def loopUpdate (p : Params) (o : Sync) (mf : Value) : Writes Sync := do
  let dmf ← atObj o (bankExec p o.dh o.m o.dmfHist o.b)
  let e ← atObj o (ted p.num mf dmf)
  let qw ← atObj o (lfExec p.num o.lfB o.lfA o.lfW e)
  let o := { o with lfW := qw.2 }
  let nominal ← atObj o (divNum p.num o.k o.kOut)
  let d ← atObj o (addNum p.num nominal qw.1)
  if d ≤ 0 then .error (.nonPositiveStep, o) else .ok { o with del := d, tauDecim := o.tau }

/-- What STEP keeps while it runs (10_state.md R42): the object, and the slots that are outputs, `SLOT[0..n-1]`, so
that `n` is their number (LOG 14). -/
structure Run where
  obj : Sync
  outs : List Value
deriving DecidableEq, Repr

/-- The head of an iteration: `mf`, then the test of `n` against `OUT_CAP`, then the slot's value `mf / K`
(41_stepping.md R132). -/
def iterationHead (p : Params) (r : Run) : Writes (Value × Value) := do
  let mf ← atObj r.obj (bankExec p r.obj.h r.obj.m r.obj.mfHist r.obj.b)
  if p.outCap ≤ r.outs.length then .error (.outputOverflow, r.obj)
  else
    let y ← atObj r.obj (divValue p.num mf r.obj.k)
    return (mf, y)

/-- The locked skip: `DC` alone is written, and the slot is an output only under `LOCK_SKIP_COUNTS_OUTPUT`
(41_stepping.md R134). -/
def lockedSkip (p : Params) (r : Run) (y : Value) : Run where
  obj := { r.obj with dc := 0 }
  outs := if p.lockSkipCountsOutput then r.outs ++ [y] else r.outs

/-- The iteration tail, which makes the slot written an output (41_stepping.md R136). -/
def iterationTail (p : Params) (outs : List Value) (o : Sync) (y : Value) : Writes Run := do
  let o' ← advance p o
  return { obj := o', outs := outs ++ [y] }

/-- An iteration after its head: the on-time test (41_stepping.md R133), then the locked skip, or the unlocked update
and the tail, or the tail alone. -/
def iterationRest (p : Params) (r : Run) (mf y : Value) : Writes Run :=
  if r.obj.dc = r.obj.kOut then
    if r.obj.locked then .ok (lockedSkip p r y)
    else do
      let o ← loopUpdate p { r.obj with dc := 0 } mf
      iterationTail p r.outs o y
  else iterationTail p r.outs r.obj y

/-- One iteration of the inner loop, entered with `B < M` (41_stepping.md R132 to R136). -/
def iteration (p : Params) (r : Run) : Writes Run := do
  let v ← iterationHead p r
  iterationRest p r v.1 v.2

/-- The wrap, once per STEP (41_stepping.md R137). -/
def wrap (p : Params) (o : Sync) : Writes Sync := do
  let tau ← atObj o (subNum p.num o.tau 1)
  let o := { o with tau := tau }
  let bf ← atObj o (subNum p.num o.bf o.m)
  let o := { o with bf := bf }
  .ok { o with b := o.b - o.m }

/-- The inner loop, `while B < M` (41_stepping.md R132): none where `fuel` iterations do not end it. -/
def innerLoop (p : Params) : Nat → Run → Option (Writes Run)
  | 0, _ => none
  | fuel + 1, r =>
    if r.obj.b < (r.obj.m : Int) then
      match iteration p r with
      | .error e => some (.error e)
      | .ok r' => innerLoop p fuel r'
    else some (.ok r)

/-- Loop tests enough for every STEP that ends: at most `2*OUT_CAP + 1` iterations and the last test
(41_stepping.md R140). -/
def loopFuel (p : Params) : Nat := 2 * p.outCap + 2

/-- Both banks see the input sample (40_components.md R106, 41_stepping.md R131). -/
def pushSample (o : Sync) (x : Value) : Sync :=
  { o with mfHist := bankPush o.mfHist x, dmfHist := bankPush o.dmfHist x }

/-- The body of STEP (41_stepping.md R131 to R137): none where the inner loop never ends. -/
def stepBody (p : Params) (o : Sync) (x : Value) : Option (Writes Run) :=
  match innerLoop p (loopFuel p) { obj := pushSample o x, outs := [] } with
  | none => none
  | some (.error e) => some (.error e)
  | some (.ok r) =>
    match wrap p r.obj with
    | .error e => some (.error e)
    | .ok o' => some (.ok { obj := o', outs := r.outs })

/-- The bodies of STEP on each sample in turn, the outputs appended (41_stepping.md R139). -/
def stepMany (p : Params) (r : Run) : List Value → Option (Writes Run)
  | [] => some (.ok r)
  | x :: xs =>
    match stepBody p r.obj x with
    | none => none
    | some (.error e) => some (.error e)
    | some (.ok r') => stepMany p { obj := r'.obj, outs := r.outs ++ r'.outs } xs

/-- The response of STEP and EXECUTE: the count and the samples (41_stepping.md R138, R139). -/
def endOutputs : Option (Writes Run) → Ending
  | none => .hang
  | some (.error (c, o)) => .fault c o
  | some (.ok r) => .ok r.obj (.outputs r.outs.length r.outs)

/-- The first value on the operand channel; a command that has passed the operand check has one. -/
def firstOperand (ops : List Value) : Value := ops.headD default

/-- STEP (41_stepping.md R130). -/
def execStep (s : State) : Host.Outcome State Fault Refusal :=
  onObject .step s (fun o => endOutputs (stepBody s.params o (firstOperand s.operands)))

/-- EXECUTE (41_stepping.md R139). -/
def execExecute (nx : Nat) (s : State) : Host.Outcome State Fault Refusal :=
  onObject (.execute nx) s (fun o => endOutputs (stepMany s.params { obj := o, outs := [] } s.operands))

end Sys2Proof.Machine
end

