-- ==== Sys2Proof/Machine/Dispatch.lean ====
section
/-! DEFINITION. The meaning of each command, one arm a constructor. -/

namespace Sys2Proof.Machine

def exec (i : Instr) (s : State) : Host.Outcome State Fault Refusal :=
  match i with
  | .create k m len => Sys2Proof.Machine.execCreate k m len s
  | .createRnyq k m ftype symDelay => Sys2Proof.Machine.execCreateRnyq k m ftype symDelay s
  | .destroy => Sys2Proof.Machine.execDestroy s
  | .reset => Sys2Proof.Machine.execReset s
  | .lock => Sys2Proof.Machine.execLock s
  | .unlock => Sys2Proof.Machine.execUnlock s
  | .setRate => Sys2Proof.Machine.execSetRate s
  | .setOutputRate kOut => Sys2Proof.Machine.execSetOutputRate kOut s
  | .setLoopBw => Sys2Proof.Machine.execSetLoopBw s
  | .getTau => Sys2Proof.Machine.execGetTau s
  | .step => Sys2Proof.Machine.execStep s
  | .execute nx => Sys2Proof.Machine.execExecute nx s
  | .print => Sys2Proof.Machine.execPrint s

end Sys2Proof.Machine
end

