-- ==== Sys2Proof/Machine/Step.lean ====
section
/-! DEFINITION. One step of the unit: the acceptance of the next command and its meaning. -/

namespace Sys2Proof.Machine

/-- One command, run to completion (00_scope.md R6): what `fetch` accepts, `exec` runs. A latched unit is stuck
(60_exceptions.md R224); a unit with no command waits, its state unchanged (60_exceptions.md R235; LOG 9). -/
def step (s : State) : Host.Outcome State Fault Refusal :=
  match fetch s with
  | .stuck c => .fault (.stuck c)
  | .idle => .next s
  | .reserved t => .next t
  | .run i t => exec i t

/-- `s` with the command of the given word, its operands zeros, first on the port: the next step runs it (LOG 11). -/
def State.withFetchWord (s : State) (nbits w : Nat) : State :=
  { s with inbox := zeroCommand s.params (BitVec.ofNat 64 (w % 2 ^ nbits)) :: s.inbox }

end Sys2Proof.Machine
end

