-- ==== Sys2Proof/Safety.lean ====
section
/-! DEFINITION. What a good state of the unit is (10_state.md section 6 and the legal values of its sections 2 to 4), and
the terms the statements use. -/

namespace Sys2Proof.Machine

/-- Legal parameters (00_scope.md R7): `BT_INIT` in [0,1], `OUT_CAP` at least 1. -/
structure ParamsOk (p : Params) : Prop where
  btInit_nonneg : 0 ≤ p.btInit
  btInit_le_one : p.btInit ≤ 1
  outCap_pos : 1 ≤ p.outCap

/-- The configuration registers hold legal values and the stores have their lengths and types (10_state.md R23 to R28,
R35, R37, R43 (a); 40_components.md R106). `DH` is of type `C` as `H` is (R26). -/
structure ShapeOk (p : Params) (o : Sync) : Prop where
  k_ge : 2 ≤ o.k
  k_lt : o.k < 2 ^ 16
  m_ge : 1 ≤ o.m
  m_lt : o.m < 2 ^ 16
  len_ge : o.m + 1 ≤ o.len
  len_lt : o.len < 2 ^ 24
  len_mod : (o.len - 1) % o.m = 0
  kOut_ge : 1 ≤ o.kOut
  kOut_lt : o.kOut < 2 ^ 24
  dc_lt : o.dc < 2 ^ p.dcWidth
  h_length : o.h.length = o.len
  dh_length : o.dh.length = o.len
  h_kind : ∀ v ∈ o.h, v.kind = coefKind p.types
  dh_kind : ∀ v ∈ o.dh, v.kind = coefKind p.types
  hist_length : o.mfHist.length = histLength p o.len o.m
  hist_kind : ∀ v ∈ o.mfHist, v.kind = inputKind p.types
  hist_same : o.dmfHist = o.mfHist

/-- The phase registers between commands, under exact `NUM` (10_state.md R43 (b) to (f)), and `B` in its range
(R34). -/
structure PhaseOk (p : Params) (o : Sync) : Prop where
  del_pos : 0 < o.del
  bf_eq : o.bf = o.tau * o.m
  bf_ge : -(1 / 2) ≤ o.bf
  b_eq : o.b = (o.bf + 1 / 2).floor
  b_nonneg : 0 ≤ o.b
  b_fits : fitsB p o.b = true

/-- The rate and the loop coefficients are those the setters write (10_state.md R29; 40_components.md R109). -/
structure RateOk (o : Sync) : Prop where
  rate_eq : o.rate = (o.kOut : Rat) / (o.k : Rat)
  coeffs : ∃ bt : Rat, 0 ≤ bt ∧ bt ≤ 1 ∧ o.lfB = ⟨11 / 50 * bt, 0, 0⟩ ∧
    o.lfA = ⟨1 - 1 / 2 * (1 - bt), -(99 / 200) * (1 - bt), 0⟩

/-- What holds of the object between commands, under exact `NUM` (10_state.md R43). -/
structure ObjectInv (p : Params) (o : Sync) : Prop where
  shape : ShapeOk p o
  phase : PhaseOk p o
  rate : RateOk o

/-- The invariant of the unit under exact `NUM`: "When `MODE = CONFIGURED` and `FAULT = none`" the object's
(10_state.md R43). -/
structure State.Inv (s : State) : Prop where
  params : ParamsOk s.params
  exact : s.params.num = .exact
  object : s.fault = none → ∀ o, s.obj = some o → ObjectInv s.params o

/-- The shape alone, for either `NUM`, latched or not. -/
def State.Shaped (s : State) : Prop := ∀ o, s.obj = some o → ShapeOk s.params o

/-- The object a successful construction leaves under exact `NUM` (42_lifecycle.md R162, R163), from `K`, `M`, the
prototype and its derivative. -/
def freshObject (p : Params) (k m : Nat) (h dh : List Value) : Sync where
  k := k
  m := m
  len := h.length
  h := h
  dh := dh
  kOut := 1
  rate := 1 / (k : Rat)
  del := (k : Rat)
  tau := 0
  tauDecim := 0
  bf := 0
  b := 0
  dc := 0
  locked := false
  lfB := ⟨11 / 50 * p.btInit, 0, 0⟩
  lfA := ⟨1 - 1 / 2 * (1 - p.btInit), -(99 / 200) * (1 - p.btInit), 0⟩
  lfW := ⟨0, 0, 0⟩
  mfHist := List.replicate (histLength p h.length m) (Value.zero (inputKind p.types))
  dmfHist := List.replicate (histLength p h.length m) (Value.zero (inputKind p.types))

/-- At most `n` iterations of the inner loop, one after another while `B < M` (41_stepping.md R132); the first fault ends
them. -/
def runIterations (p : Params) : Nat → Run → Writes Run
  | 0, r => .ok r
  | n + 1, r =>
    if r.obj.b < (r.obj.m : Int) then
      match iteration p r with
      | .error e => .error e
      | .ok r' => runIterations p n r'
    else .ok r

/-- The outputs of the loop filter on a sequence of inputs, its memory carried along (40_components.md R111). -/
def lfRun (num : NumMode) (lfB lfA : Taps) (lfW : Taps) : List Rat → Except FaultCode (List Rat)
  | [] => .ok []
  | x :: xs =>
    match lfExec num lfB lfA lfW x with
    | .error c => .error c
    | .ok (y, w) =>
      match lfRun num lfB lfA w xs with
      | .error c => .error c
      | .ok ys => .ok (y :: ys)

/-- The state after a command that answered with the given status and payload and left the given object: nothing else
differs (30_encoding.md R83). -/
def answered (s : State) (obj : Option Sync) (status : Status) (payload : Payload) : State where
  params := s.params
  fault := s.fault
  obj := obj
  word := s.word
  operands := []
  inbox := s.inbox
  outbox := s.outbox ++ [{ status := status, payload := payload }]

/-- The state after a command that raised a fault and left the given object: the latch is set, the fault response sent,
nothing else differs (60_exceptions.md R222). -/
def latched (s : State) (obj : Option Sync) (c : FaultCode) : State where
  params := s.params
  fault := some c
  obj := obj
  word := s.word
  operands := []
  inbox := s.inbox
  outbox := s.outbox ++ [{ status := .fault c, payload := .none }]

end Sys2Proof.Machine
end

