-- ==== Sys2Proof/Certificates/Slice0/Obligations.lean ====
section
/-! DEFINITION. The statements for the provers. `answered` and `latched` (Safety.lean) are whole next states: an equation
with one of them says what the command changes and that it changes nothing else. -/

open Sys2Proof Sys2Proof.Machine

/-! Encoding. -/

/-- Decoding the word of a well-formed command gives the command, for every command and every field value. -/
def Obligations.DecodeOfEncode : Prop :=
  ∀ i : Instr, i.wf = true → decodeWord (encode i) = .ok i

/-- Each word has one meaning: the command a word decodes to is well formed and is spelled by that word alone. -/
def Obligations.EncodeOfDecode : Prop :=
  ∀ (w : Word) (i : Instr), decodeWord w = .ok i → encode i = w ∧ i.wf = true

/-- Words written out from the tables of 30_encoding.md section 2 and its worked encodings decode to their commands. -/
def Obligations.WorkedWordsDecode : Prop :=
  decodeWord 0x0100020008000021 = .ok (.create 2 8 33) ∧
  decodeWord 0x0200020004010003 = .ok (.createRnyq 2 4 1 3) ∧
  decodeWord 0x0400000000000000 = .ok .reset ∧
  decodeWord 0x0500000000000000 = .ok .lock ∧
  decodeWord 0x0800000000000004 = .ok (.setOutputRate 4) ∧
  decodeWord 0x0B00000000000000 = .ok .step ∧
  decodeWord 0x0C000000000007D0 = .ok (.execute 2000) ∧
  decodeWord 0x0D00000000000000 = .ok .print

/-- `OP = 0x00` and `OP` in 0x0E to 0xFF raise Fault(ReservedEncoding), and no register is written (R85). -/
def Obligations.ReservedOpcodeFaults : Prop :=
  ∀ (s : State) (w : Word) (ops : List Value) (rest : List Command),
    s.fault = none → s.inbox = { word := w, operands := ops } :: rest →
    (w.toNat / 2 ^ 56 = 0 ∨ 14 ≤ w.toNat / 2 ^ 56) →
    step s = .next (latched { s with word := some w, inbox := rest } s.obj .reservedEncoding)

/-- A nonzero must-be-zero field raises Fault(ReservedEncoding), and no register is written (R86): all 56 bits below
`OP`, but for SET_OUTPUT_RATE and EXECUTE only those above `C`. -/
def Obligations.NonzeroReservedFieldFaults : Prop :=
  ∀ (s : State) (w : Word) (ops : List Value) (rest : List Command),
    s.fault = none → s.inbox = { word := w, operands := ops } :: rest →
    ((w.toNat / 2 ^ 56 ∈ [3, 4, 5, 6, 7, 9, 10, 11, 13] ∧ w.toNat % 2 ^ 56 ≠ 0) ∨
      (w.toNat / 2 ^ 56 ∈ [8, 12] ∧ w.toNat % 2 ^ 56 / 2 ^ 24 ≠ 0)) →
    step s = .next (latched { s with word := some w, inbox := rest } s.obj .reservedEncoding)

/-! The front end. -/

/-- A step runs the decoded command: it takes the oldest command off the port, puts its operands on the channel and
records its word, and is then `exec` of what the word decodes to. -/
def Obligations.StepRunsDecodedCommand : Prop :=
  ∀ (s : State) (c : Command) (rest : List Command) (i : Instr),
    s.fault = none → s.inbox = c :: rest → decodeWord c.word = .ok i →
    step s = exec i { s with word := some c.word, operands := c.operands, inbox := rest }

/-- How many operands a command calls for, and whether each is an `R`, an `S` or a `C` (the table of R82). -/
def demanded : Instr → Nat × OperandType
  | .create _ _ len => (len, .coef)
  | .createRnyq _ _ _ _ => (1, .number)
  | .setRate => (1, .number)
  | .setLoopBw => (1, .number)
  | .step => (1, .sample)
  | .execute nx => (nx, .sample)
  | _ => (0, .number)

/-- Real or complex, for an operand type under each of the three sample type combinations (R9). -/
def demandedKind : OperandType → SampleTypes → Kind
  | .number, _ => .real
  | .sample, .rrr => .real
  | .sample, _ => .complex
  | .coef, .ccc => .complex
  | .coef, _ => .real

/-- Another number of operands, or one of the wrong type, raises Fault(MalformedCommand) before any register is
written, in either mode (R82). -/
def Obligations.OperandMismatchFaults : Prop :=
  ∀ (i : Instr) (s : State),
    (s.operands.length ≠ (demanded i).1 ∨
      ∃ v ∈ s.operands, v.kind ≠ demandedKind (demanded i).2 s.params.types) →
    exec i s = .next (latched s s.obj .malformedCommand)

/-- Under exact `NUM` operands in the number and of the types R82 lists are never malformed: a command that raises
Fault(MalformedCommand) had others. -/
def Obligations.DemandedOperandsAccepted : Prop :=
  ∀ (i : Instr) (s t : State), s.params.num = .exact → s.fault = none →
    s.operands.length = (demanded i).1 →
    (∀ v ∈ s.operands, v.kind = demandedKind (demanded i).2 s.params.types) →
    exec i s = .next t → t.fault ≠ some .malformedCommand

/-- Without an object every command but CREATE and CREATE_RNYQ raises Fault(NotConfigured) before it writes any
register (R223). -/
def Obligations.UnconfiguredCommandFaults : Prop :=
  ∀ (i : Instr) (s : State), s.obj = none → operandsOk s.params i s.operands = true →
    (∀ k m len, i ≠ .create k m len) → (∀ k m ftype d, i ≠ .createRnyq k m ftype d) →
    exec i s = .next (latched s none .notConfigured)

/-- The fault latch (R22): every fault response sets it, a latched unit takes no further step, power-on reset clears it,
and it is clear after power-on. -/
def Obligations.FaultLatch : Prop :=
  (∀ (s t : State) (r : Response) (c : FaultCode),
    step s = .next t → t.outbox = s.outbox ++ [r] → r.status = .fault c → t.fault = some c) ∧
  (∀ (s : State) (c : FaultCode), s.fault = some c → step s = .fault (.stuck c)) ∧
  (∀ s t : State, step s = .next t → s.fault = none) ∧
  (∀ s : State, s.powerOn.fault = none) ∧ State.reset.fault = none

/-- A unit with no command waits with its state unchanged. The model's reading (LOG 9) of "Between commands it holds its
state unchanged" (60_exceptions.md section 5). -/
def Obligations.IdleUnitWaits : Prop :=
  ∀ s : State, s.fault = none → s.inbox = [] → step s = .next s

/-- Power-on reset: UNCONFIGURED, no fault, no register with a value; the next command, unless it constructs, faults
with NotConfigured. What becomes of commands not yet accepted is the model's choice (LOG 12). -/
def Obligations.PowerOnReset : Prop :=
  ∀ s : State, s.powerOn.mode = .unconfigured ∧ s.powerOn.fault = none ∧ s.powerOn.obj = none ∧
    ∀ (c : Command) (i : Instr), decodeWord c.word = .ok i → operandsOk s.params i c.operands = true →
      (∀ k m len, i ≠ .create k m len) → (∀ k m ftype d, i ≠ .createRnyq k m ftype d) →
      step (s.powerOn.submit c) =
        .next (latched { s.powerOn with word := some c.word } none .notConfigured)

/-- The payload an OK response to the command may carry (R83). -/
def payloadFits (types : SampleTypes) (i : Instr) (p : Payload) : Prop :=
  match i with
  | .step => ∃ ys, p = .outputs ys.length ys ∧ ∀ y ∈ ys, Value.kind y = outputKind types
  | .execute _ => ∃ ys, p = .outputs ys.length ys ∧ ∀ y ∈ ys, Value.kind y = outputKind types
  | .getTau => ∃ v, p = .number v
  | _ => p = .none

/-- Exactly one response per command, in command order, with the payload of its command; errors and faults carry none,
and a fault response is the last (R83). -/
def Obligations.OneResponsePerCommand : Prop :=
  ∀ (s t : State) (c : Command) (rest : List Command),
    s.Shaped → s.inbox = c :: rest → step s = .next t →
    t.inbox = rest ∧ ∃ r, t.outbox = s.outbox ++ [r] ∧
      (r.status = .ok → ∃ i, decodeWord c.word = .ok i ∧ payloadFits s.params.types i r.payload) ∧
      (r.status ≠ .ok → r.payload = .none) ∧
      (∀ f, r.status = .fault f → ∀ t', step t ≠ .next t')

/-- An unlatched unit always takes a step: no command hangs, stops or is refused (R140: "STEP never hangs"). -/
def Obligations.UnlatchedUnitSteps : Prop :=
  ∀ s : State, s.fault = none → (∀ o, s.obj = some o → 1 ≤ o.kOut) → ∃ t, step s = .next t

/-! Lifecycle. -/

/-- CREATE, its checks passed and `NUM` exact: the coefficient load and `CreateInit()`, whatever object was there
before (R162, R163). That the histories hold `LEN` zeros under an external `BANK` is the model's choice (LOG 4); under
the reference instance they hold the `L` of R37. -/
def Obligations.CreateCompletes : Prop :=
  ∀ (s : State) (k m len : Nat), s.params.num = .exact →
    operandsOk s.params (.create k m len) s.operands = true →
    2 ≤ k → 1 ≤ m → 2 ≤ len → (len - 1) % m = 0 →
    ∃ dh, deriveProto s.params s.operands = .ok dh ∧
      exec (.create k m len) s = .next (answered s (some (freshObject s.params k m s.operands dh)) .ok .none)

/-- CREATE's checks, in their order, each leaving the unit UNCONFIGURED (R161). -/
def Obligations.CreateRejects : Prop :=
  ∀ (s : State) (k m len : Nat), operandsOk s.params (.create k m len) s.operands = true →
    (k < 2 → exec (.create k m len) s = .next (answered s none (.error .invalidSamplesPerSymbol) .none)) ∧
    (2 ≤ k → len = 0 → exec (.create k m len) s = .next (answered s none (.error .invalidFilterLength) .none)) ∧
    (2 ≤ k → 1 ≤ len → m = 0 →
      exec (.create k m len) s = .next (answered s none (.error .invalidFilterBankSize) .none)) ∧
    (2 ≤ k → 1 ≤ m → (len = 1 ∨ 2 ≤ len ∧ (len - 1) % m ≠ 0) →
      exec (.create k m len) s = .next (answered s none (.error .invalidFilterLength) .none))

/-- CREATE_RNYQ, its checks passed and `NUM` exact: the designer's rejection, or what CREATE does with the designer's
coefficients (R166). The model's choices in it: the designer's list is cut at 2^24-1 coefficients, and each is brought to
type `C` (LOG 7); the histories hold `LEN` zeros under an external `BANK` (LOG 4). -/
def Obligations.CreateRnyqCompletes : Prop :=
  ∀ (s : State) (k m ftype d : Nat) (beta : Rat), s.params.num = .exact → s.operands = [.real beta] →
    2 ≤ k → 1 ≤ m → 0 < beta → beta ≤ 1 → 1 ≤ d →
    exec (.createRnyq k m ftype d) s = .next
      (match nyqDesign s.params ftype k m d beta with
       | none => answered s none (.error .designRejected) .none
       | some h =>
         if h.length ≤ 1 ∨ (h.length - 1) % m ≠ 0 then answered s none (.error .invalidFilterLength) .none
         else answered s
           (some (freshObject s.params k m h ((deriveProto s.params h).toOption.getD []))) .ok .none)

/-- CREATE_RNYQ's checks, in their order, each leaving the unit UNCONFIGURED (R167). -/
def Obligations.CreateRnyqRejects : Prop :=
  ∀ (s : State) (k m ftype d : Nat) (beta : Rat),
    operandsOk s.params (.createRnyq k m ftype d) s.operands = true → s.operands = [.real beta] →
    (k < 2 → exec (.createRnyq k m ftype d) s = .next (answered s none (.error .invalidSamplesPerSymbol) .none)) ∧
    (2 ≤ k → m = 0 →
      exec (.createRnyq k m ftype d) s = .next (answered s none (.error .invalidFilterBankSize) .none)) ∧
    (2 ≤ k → 1 ≤ m → (beta ≤ 0 ∨ 1 < beta) →
      exec (.createRnyq k m ftype d) s = .next (answered s none (.error .invalidRolloff) .none)) ∧
    (2 ≤ k → 1 ≤ m → 0 < beta → beta ≤ 1 → d = 0 →
      exec (.createRnyq k m ftype d) s = .next (answered s none (.error .invalidSymbolDelay) .none))

/-- DESTROY (R170). -/
def Obligations.DestroyCompletes : Prop :=
  decodeWord 0x0300000000000000 = .ok .destroy ∧
  (∀ s : State, s.operands = [] → s.obj = none → exec .destroy s = .next (latched s none .notConfigured)) ∧
  ∀ (s : State) (o : Sync), s.obj = some o → s.operands = [] →
    exec .destroy s = .next (answered s none .ok .none)

/-- RESET under exact `NUM`: what it clears, and that it keeps the rest (R175). -/
def Obligations.ResetCompletes : Prop :=
  decodeWord 0x0400000000000000 = .ok .reset ∧
  (∀ s : State, s.operands = [] → s.obj = none → exec .reset s = .next (latched s none .notConfigured)) ∧
  ∀ (s : State) (o : Sync), s.params.num = .exact → s.obj = some o → s.operands = [] →
    exec .reset s = .next (answered s
      (some { o with
        tau := 0, tauDecim := 0, bf := 0, b := 0, dc := 0, lfW := ⟨0, 0, 0⟩, del := 1 / o.rate
        mfHist := o.mfHist.map (fun _ => Value.zero (inputKind s.params.types))
        dmfHist := o.dmfHist.map (fun _ => Value.zero (inputKind s.params.types)) }) .ok .none)

/-- After RESET two units with equal configuration registers, equal parameters and equal `LOCKED` hold equal objects,
whatever their phase, loop memory and histories were (R176, an inference of the spec). -/
def Obligations.ResetForgetsPhase : Prop :=
  ∀ (s₁ s₂ t₁ t₂ : State) (o₁ o₂ : Sync), s₁.params = s₂.params → s₁.obj = some o₁ → s₂.obj = some o₂ →
    s₁.operands = [] → s₂.operands = [] →
    o₁.k = o₂.k → o₁.m = o₂.m → o₁.len = o₂.len → o₁.h = o₂.h → o₁.dh = o₂.dh → o₁.kOut = o₂.kOut →
    o₁.rate = o₂.rate → o₁.lfB = o₂.lfB → o₁.lfA = o₂.lfA → o₁.locked = o₂.locked →
    ShapeOk s₁.params o₁ → ShapeOk s₂.params o₂ →
    exec .reset s₁ = .next t₁ → exec .reset s₂ = .next t₂ → t₁.fault = none → t₂.fault = none →
    t₁.obj = t₂.obj

/-! Control. -/

/-- LOCK sets `LOCKED`, locked or not before, and writes nothing else (R190). -/
def Obligations.LockCompletes : Prop :=
  decodeWord 0x0500000000000000 = .ok .lock ∧
  (∀ s : State, s.operands = [] → s.obj = none → exec .lock s = .next (latched s none .notConfigured)) ∧
  ∀ (s : State) (o : Sync), s.obj = some o → s.operands = [] →
    exec .lock s = .next (answered s (some { o with locked := true }) .ok .none)

/-- UNLOCK clears `LOCKED`, locked or not before, and writes nothing else: `LF_W` stays (R191). -/
def Obligations.UnlockCompletes : Prop :=
  decodeWord 0x0600000000000000 = .ok .unlock ∧
  (∀ s : State, s.operands = [] → s.obj = none → exec .unlock s = .next (latched s none .notConfigured)) ∧
  ∀ (s : State) (o : Sync), s.obj = some o → s.operands = [] →
    exec .unlock s = .next (answered s (some { o with locked := false }) .ok .none)

/-- SET_RATE under exact `NUM`: it writes `DEL` alone, and a rate that is not positive faults (R193). -/
def Obligations.SetRateCompletes : Prop :=
  decodeWord 0x0700000000000000 = .ok .setRate ∧
  (∀ (s : State) (r : Rat), s.params.num = .exact → s.operands = [.real r] → s.obj = none →
    exec .setRate s = .next (latched s none .notConfigured)) ∧
  ∀ (s : State) (o : Sync) (r : Rat), s.params.num = .exact → s.obj = some o → s.operands = [.real r] →
    (0 < r → exec .setRate s = .next (answered s (some { o with del := 1 / r }) .ok .none)) ∧
    (r ≤ 0 → exec .setRate s = .next (latched s (some o) .nonPositiveStep))

/-- SET_OUTPUT_RATE under exact `NUM`: `K_OUT`, `RATE` and `DEL`, and not `DC`; zero is an error that changes no
register (R196). -/
def Obligations.SetOutputRateCompletes : Prop :=
  decodeWord 0x0800000000000004 = .ok (.setOutputRate 4) ∧
  (∀ (s : State) (kOut : Nat), s.operands = [] → s.obj = none →
    exec (.setOutputRate kOut) s = .next (latched s none .notConfigured)) ∧
  (∀ (s : State) (o : Sync), s.obj = some o → s.operands = [] →
    exec (.setOutputRate 0) s = .next (answered s (some o) (.error .invalidOutputRate) .none)) ∧
  ∀ (s : State) (o : Sync) (kOut : Nat), s.params.num = .exact → s.obj = some o → s.operands = [] → 1 ≤ kOut →
    exec (.setOutputRate kOut) s = .next (answered s
      (some { o with kOut := kOut, rate := (kOut : Rat) / (o.k : Rat), del := (o.k : Rat) / (kOut : Rat) }) .ok .none)

/-- SET_LOOP_BW under exact `NUM`: the coefficients of `bt`, `LF_W` kept; a bandwidth outside [0,1] is an error that
changes no register (R199). -/
def Obligations.SetLoopBwCompletes : Prop :=
  decodeWord 0x0900000000000000 = .ok .setLoopBw ∧
  (∀ (s : State) (bt : Rat), s.params.num = .exact → s.operands = [.real bt] → s.obj = none →
    exec .setLoopBw s = .next (latched s none .notConfigured)) ∧
  ∀ (s : State) (o : Sync) (bt : Rat), s.params.num = .exact → s.obj = some o → s.operands = [.real bt] →
    (0 ≤ bt → bt ≤ 1 → exec .setLoopBw s = .next (answered s
      (some { o with
        lfB := ⟨11 / 50 * bt, 0, 0⟩, lfA := ⟨1 - 1 / 2 * (1 - bt), -(99 / 200) * (1 - bt), 0⟩ }) .ok .none)) ∧
    ((bt < 0 ∨ 1 < bt) →
      exec .setLoopBw s = .next (answered s (some o) (.error .invalidLoopBandwidth) .none))

/-- GET_TAU responds `TAU_DECIM`, not `TAU`, and writes nothing (R202). -/
def Obligations.GetTauCompletes : Prop :=
  decodeWord 0x0A00000000000000 = .ok .getTau ∧
  (∀ s : State, s.operands = [] → s.obj = none → exec .getTau s = .next (latched s none .notConfigured)) ∧
  ∀ (s : State) (o : Sync), s.obj = some o → s.operands = [] →
    exec .getTau s = .next (answered s (some o) .ok (.number o.tauDecim))

/-- PRINT responds OK and writes nothing (R205). -/
def Obligations.PrintCompletes : Prop :=
  decodeWord 0x0D00000000000000 = .ok .print ∧
  (∀ s : State, s.operands = [] → s.obj = none → exec .print s = .next (latched s none .notConfigured)) ∧
  ∀ (s : State) (o : Sync), s.obj = some o → s.operands = [] →
    exec .print s = .next (answered s (some o) .ok .none)

/-! The sub-blocks. -/

/-- `BankPush`: the newest sample first, the oldest discarded (R102). -/
def Obligations.BankPushShifts : Prop :=
  ∀ (hist : List Value) (x : Value), hist ≠ [] → bankPush hist x = x :: hist.dropLast

/-- `BankExec` under exact `NUM`, for whichever `BANK` and all three sample type combinations: inside `[0, M)` the
convolution, of type `O`, of sub-filter `i` with the history; the sub-filter is of type `C`, does not depend on the
history (R100), and for the reference instance has the taps `P[i + j*M]` (R103). Outside `[0, M)`, for either `NUM`,
Fault(BankIndexOutOfRange). That an external bank's history holds `LEN` samples is the model's choice (LOG 4). -/
def Obligations.BankExecConvolves : Prop :=
  (∀ (p : Params) (proto : List Value) (m : Nat) (i : Int), p.num = .exact →
    (∀ v ∈ proto, v.kind = coefKind p.types) → 0 ≤ i → i < (m : Int) →
    ∃ taps : List Value, taps.length = histLength p proto.length m ∧ (∀ v ∈ taps, v.kind = coefKind p.types) ∧
      (p.bankSel = .reference → taps.length = (proto.length - 1) / m ∧
        ∀ j, j < taps.length → taps.getD j default = proto.getD (i.toNat + j * m) default) ∧
      ∀ hist : List Value, (∀ v ∈ hist, v.kind = inputKind p.types) → hist.length = taps.length →
        ∃ v, bankExec p proto m hist i = .ok v ∧ v.kind = outputKind p.types ∧
          v.re = ∑ j ∈ Finset.range hist.length,
            ((taps.getD j default).re * (hist.getD j default).re -
              (taps.getD j default).im * (hist.getD j default).im) ∧
          v.im = ∑ j ∈ Finset.range hist.length,
            ((taps.getD j default).re * (hist.getD j default).im +
              (taps.getD j default).im * (hist.getD j default).re)) ∧
  (∀ (p : Params) (proto hist : List Value) (m : Nat) (i : Int), (i < 0 ∨ (m : Int) ≤ i) →
    bankExec p proto m hist i = .error .bankIndexOutOfRange)

/-- The reference `DERIV` for real coefficients under exact `NUM`: the central difference with wrap-around ends, scaled
so that the largest `|H[i]*DH[i]|` is 0.06, and all zero where `mx = 0` (R104). -/
def Obligations.ReferenceDerivative : Prop :=
  ∀ rs : List Rat, 2 ≤ rs.length →
    ∃ (ds : List Rat) (mx : Rat),
      refDeriv .exact .real (rs.map Value.real) = .ok (ds.map Value.real) ∧ ds.length = rs.length ∧
      (∀ i, i < rs.length →
        |rs.getD i 0 * (rs.getD ((i + 1) % rs.length) 0 - rs.getD ((i + rs.length - 1) % rs.length) 0)| ≤ mx) ∧
      (∃ i, i < rs.length ∧
        |rs.getD i 0 * (rs.getD ((i + 1) % rs.length) 0 - rs.getD ((i + rs.length - 1) % rs.length) 0)| = mx) ∧
      ∀ i, i < rs.length → ds.getD i 0 =
        if mx = 0 then 0
        else (rs.getD ((i + 1) % rs.length) 0 - rs.getD ((i + rs.length - 1) % rs.length) 0) * (6 / 100) / mx

/-- The timing error detector under exact `NUM`, for real and complex values: `Re(conj(mf)*dmf)` clipped to [-1, 1], with
no fault (R107). -/
def Obligations.DetectorClips : Prop :=
  ∀ mf dmf : Value,
    ted .exact mf dmf = .ok (max (-1) (min 1 (mf.re * dmf.re + mf.im * dmf.im)))

/-- `LFCoeffs(bt)` under exact `NUM` (R109). -/
def Obligations.LoopCoefficients : Prop :=
  ∀ bt : Rat, lfCoeffs .exact bt =
    .ok (⟨22 / 100 * bt, 0, 0⟩, ⟨1 - 1 / 2 * (1 - bt), -(495 / 1000) * (1 - bt), 0⟩)

/-- One loop filter step under exact `NUM`: direct form II, normalized by `LF_A[0]` (R111). -/
def Obligations.LoopFilterStep : Prop :=
  ∀ (lfB lfA lfW : Taps) (x : Rat), ∃ y w0 : Rat,
    lfExec .exact lfB lfA lfW x = .ok (y, ⟨w0, lfW.c0, lfW.c1⟩) ∧
    w0 = x - lfA.c1 / lfA.c0 * lfW.c0 - lfA.c2 / lfA.c0 * lfW.c1 ∧
    y = (lfB.c0 * w0 + lfB.c1 * lfW.c0 + lfB.c2 * lfW.c1) / lfA.c0

/-- The loop output is bounded for a fixed `bt`, from zero memory, on inputs in [-1, 1], under exact `NUM` (R115, an
inference of the spec). -/
def Obligations.LoopOutputBounded : Prop :=
  ∀ (bt : Rat) (xs : List Rat), 0 ≤ bt → bt ≤ 1 → (∀ x ∈ xs, |x| ≤ 1) →
    ∃ ys, lfRun .exact ⟨11 / 50 * bt, 0, 0⟩ ⟨1 - 1 / 2 * (1 - bt), -(99 / 200) * (1 - bt), 0⟩ ⟨0, 0, 0⟩ xs = .ok ys ∧
      ys.length = xs.length ∧
      ∀ y ∈ ys, |y| ≤ 11 / 50 * bt / (1 / 200 + 199 / 200 * bt) ∧ |y| ≤ 11 / 50

/-- `round` gives a nearest integer, and of two the one away from zero (R10). -/
def Obligations.RoundHalfAway : Prop :=
  ∀ v : Rat, |(roundAway v : Rat) - v| ≤ 1 / 2 ∧
    (|(roundAway v : Rat) - v| = 1 / 2 → |v| < |(roundAway v : Rat)|)

/-- Under binary32 a product whose exact value is 2^128 or more in size is not finite and raises
Fault(NumericUndefined) (R10; the rounding is the model's, LOG 1). -/
def Obligations.BinaryOverflowFaults : Prop :=
  ∀ a b : Rat, 2 ^ 128 ≤ |a * b| → mulNum .binary32 a b = .error .numericUndefined

/-! Stepping, under exact `NUM`. -/

/-- STEP with `B >= M` at entry: it only pushes and wraps, and responds with no output (R130, R137). -/
def Obligations.StepWithoutOutput : Prop :=
  ∀ (s : State) (o : Sync) (x : Value), s.params.num = .exact → s.obj = some o → s.operands = [x] →
    operandsOk s.params .step s.operands = true → (o.m : Int) ≤ o.b →
    exec .step s = .next (answered s
      (some { o with
        mfHist := bankPush o.mfHist x, dmfHist := bankPush o.dmfHist x
        tau := o.tau - 1, bf := o.bf - o.m, b := o.b - o.m }) .ok (.outputs 0 []))

/-- STEP of one iteration that is not on-time: one output, and the advance by `DEL` (R132, R133, R136, R137). The second
clause is any such iteration of a STEP, the first, second or later: its output is computed at the `B` it is entered with
and follows the outputs before it (R138). -/
def Obligations.StepOffTimeOneOutput : Prop :=
  (∀ (s : State) (o : Sync) (x mf y : Value), s.params.num = .exact → s.obj = some o → s.operands = [x] →
    operandsOk s.params .step s.operands = true → o.b < (o.m : Int) → 1 ≤ s.params.outCap → o.dc ≠ o.kOut →
    bankExec s.params o.h o.m (bankPush o.mfHist x) o.b = .ok mf → divValue .exact mf o.k = .ok y →
    fitsB s.params (roundAway ((o.tau + o.del) * o.m)) = true → (o.m : Int) ≤ roundAway ((o.tau + o.del) * o.m) →
    exec .step s = .next (answered s
      (some { o with
        mfHist := bankPush o.mfHist x, dmfHist := bankPush o.dmfHist x
        tau := o.tau + o.del - 1, bf := (o.tau + o.del) * o.m - o.m
        b := roundAway ((o.tau + o.del) * o.m) - o.m, dc := (o.dc + 1) % 2 ^ s.params.dcWidth })
      .ok (.outputs 1 [y]))) ∧
  ∀ (p : Params) (r : Run) (mf y : Value), p.num = .exact → r.outs.length < p.outCap → r.obj.dc ≠ r.obj.kOut →
    bankExec p r.obj.h r.obj.m r.obj.mfHist r.obj.b = .ok mf → divValue .exact mf r.obj.k = .ok y →
    fitsB p (roundAway ((r.obj.tau + r.obj.del) * r.obj.m)) = true →
    iteration p r = .ok {
      obj := { r.obj with
        tau := r.obj.tau + r.obj.del, bf := (r.obj.tau + r.obj.del) * r.obj.m
        b := roundAway ((r.obj.tau + r.obj.del) * r.obj.m), dc := (r.obj.dc + 1) % 2 ^ p.dcWidth }
      outs := r.outs ++ [y] }

/-- STEP of one on-time iteration, unlocked: the detector, the loop filter, `DEL <- K/K_OUT + q_hat`, `TAU_DECIM <- TAU`,
then the tail with the new `DEL`; a step that is not positive faults with `DEL` and `TAU_DECIM` not written (R135). The
second half is any such iteration of a STEP: its output and its update are computed at the `B` it is entered with, and the
output follows the outputs before it (R138). -/
def Obligations.StepOnTimeUnlocked : Prop :=
  (∀ (s : State) (o : Sync) (x mf y dmf : Value) (e q d : Rat) (w : Taps),
    s.params.num = .exact → s.obj = some o → s.operands = [x] →
    operandsOk s.params .step s.operands = true → o.b < (o.m : Int) → 1 ≤ s.params.outCap →
    o.dc = o.kOut → o.locked = false →
    bankExec s.params o.h o.m (bankPush o.mfHist x) o.b = .ok mf → divValue .exact mf o.k = .ok y →
    bankExec s.params o.dh o.m (bankPush o.dmfHist x) o.b = .ok dmf → ted .exact mf dmf = .ok e →
    lfExec .exact o.lfB o.lfA o.lfW e = .ok (q, w) → d = (o.k : Rat) / (o.kOut : Rat) + q →
    (0 < d → fitsB s.params (roundAway ((o.tau + d) * o.m)) = true → (o.m : Int) ≤ roundAway ((o.tau + d) * o.m) →
      exec .step s = .next (answered s
        (some { o with
          mfHist := bankPush o.mfHist x, dmfHist := bankPush o.dmfHist x
          lfW := w, del := d, tauDecim := o.tau
          tau := o.tau + d - 1, bf := (o.tau + d) * o.m - o.m
          b := roundAway ((o.tau + d) * o.m) - o.m, dc := 1 % 2 ^ s.params.dcWidth })
        .ok (.outputs 1 [y]))) ∧
    (d ≤ 0 →
      exec .step s = .next (latched s
        (some { o with
          mfHist := bankPush o.mfHist x, dmfHist := bankPush o.dmfHist x, dc := 0, lfW := w }) .nonPositiveStep))) ∧
  ∀ (p : Params) (r : Run) (mf y dmf : Value) (e q d : Rat) (w : Taps), p.num = .exact →
    r.outs.length < p.outCap → r.obj.dc = r.obj.kOut → r.obj.locked = false →
    bankExec p r.obj.h r.obj.m r.obj.mfHist r.obj.b = .ok mf → divValue .exact mf r.obj.k = .ok y →
    bankExec p r.obj.dh r.obj.m r.obj.dmfHist r.obj.b = .ok dmf → ted .exact mf dmf = .ok e →
    lfExec .exact r.obj.lfB r.obj.lfA r.obj.lfW e = .ok (q, w) → d = (r.obj.k : Rat) / (r.obj.kOut : Rat) + q →
    (0 < d → fitsB p (roundAway ((r.obj.tau + d) * r.obj.m)) = true →
      iteration p r = .ok {
        obj := { r.obj with
          lfW := w, del := d, tauDecim := r.obj.tau
          tau := r.obj.tau + d, bf := (r.obj.tau + d) * r.obj.m
          b := roundAway ((r.obj.tau + d) * r.obj.m), dc := 1 % 2 ^ p.dcWidth }
        outs := r.outs ++ [y] }) ∧
    (d ≤ 0 → iteration p r = .error (.nonPositiveStep, { r.obj with dc := 0, lfW := w }))

/-- STEP with an on-time iteration, locked: the skip writes `DC` alone and repeats at the same `B`, and its sample is an
output of its own exactly under `LOCK_SKIP_COUNTS_OUTPUT` (R134). The second clause is any skip of a STEP. -/
def Obligations.StepOnTimeLocked : Prop :=
  (∀ (s : State) (o : Sync) (x mf y : Value), s.params.num = .exact → s.obj = some o → s.operands = [x] →
    operandsOk s.params .step s.operands = true → o.b < (o.m : Int) →
    (if s.params.lockSkipCountsOutput then 2 else 1) ≤ s.params.outCap → o.dc = o.kOut → 1 ≤ o.kOut → o.locked = true →
    bankExec s.params o.h o.m (bankPush o.mfHist x) o.b = .ok mf → divValue .exact mf o.k = .ok y →
    fitsB s.params (roundAway ((o.tau + o.del) * o.m)) = true → (o.m : Int) ≤ roundAway ((o.tau + o.del) * o.m) →
    exec .step s = .next (answered s
      (some { o with
        mfHist := bankPush o.mfHist x, dmfHist := bankPush o.dmfHist x
        tau := o.tau + o.del - 1, bf := (o.tau + o.del) * o.m - o.m
        b := roundAway ((o.tau + o.del) * o.m) - o.m, dc := 1 % 2 ^ s.params.dcWidth })
      .ok (if s.params.lockSkipCountsOutput then .outputs 2 [y, y] else .outputs 1 [y]))) ∧
  ∀ (p : Params) (r : Run) (mf y : Value), p.num = .exact → r.outs.length < p.outCap → r.obj.dc = r.obj.kOut →
    r.obj.locked = true → bankExec p r.obj.h r.obj.m r.obj.mfHist r.obj.b = .ok mf →
    divValue .exact mf r.obj.k = .ok y →
    iteration p r = .ok {
      obj := { r.obj with dc := 0 }
      outs := if p.lockSkipCountsOutput then r.outs ++ [y] else r.outs }

/-- An iteration with all `OUT_CAP` slots used raises Fault(OutputOverflow) and writes nothing, on-time or not, for
either `NUM` (R132). -/
def Obligations.FullSlotsFault : Prop :=
  ∀ (p : Params) (r : Run) (mf : Value), bankExec p r.obj.h r.obj.m r.obj.mfHist r.obj.b = .ok mf →
    p.outCap ≤ r.outs.length → iteration p r = .error (.outputOverflow, r.obj)

/-- The iteration tail: `DC` wraps modulo 2^DC_WIDTH, `TAU`, `BF` and `B` follow, and a `B` outside the signed
`B_WIDTH`-bit range faults with `B` not written (R136). -/
def Obligations.TailAdvances : Prop :=
  ∀ (p : Params) (o : Sync), p.num = .exact → 1 ≤ p.bWidth →
    ((-(2 ^ (p.bWidth - 1)) ≤ roundAway ((o.tau + o.del) * o.m) ∧
        roundAway ((o.tau + o.del) * o.m) < 2 ^ (p.bWidth - 1)) →
      advance p o = .ok { o with
        dc := (o.dc + 1) % 2 ^ p.dcWidth, tau := o.tau + o.del, bf := (o.tau + o.del) * o.m
        b := roundAway ((o.tau + o.del) * o.m) }) ∧
    ((roundAway ((o.tau + o.del) * o.m) < -(2 ^ (p.bWidth - 1)) ∨
        2 ^ (p.bWidth - 1) ≤ roundAway ((o.tau + o.del) * o.m)) →
      advance p o = .error (.numericRange, { o with
        dc := (o.dc + 1) % 2 ^ p.dcWidth, tau := o.tau + o.del, bf := (o.tau + o.del) * o.m }))

/-- EXECUTE completes while locked, for every batch, when a step fits: one STEP's outputs fit `OUT_CAP` and the advance
fits `B_WIDTH`. The phase moves by `DEL` an output and back by 1 a sample; `DEL`, the loop and the configuration stay
(R139, R145, R265). -/
def Obligations.LockedExecuteCompletes : Prop :=
  ∀ (s : State) (o : Sync) (nx : Nat), s.params.num = .exact → s.obj = some o → ObjectInv s.params o →
    operandsOk s.params (.execute nx) s.operands = true → o.locked = true →
    s.params.lockSkipCountsOutput = false → 1 ≤ o.del * (s.params.outCap : Rat) →
    (o.m : Rat) * (1 + o.del) ≤ 2 ^ (s.params.bWidth - 1) →
    ∃ (ys : List Value) (bf : Rat) (b : Int) (dc : Nat),
      exec (.execute nx) s = .next (answered s
        (some { o with
          mfHist := s.operands.foldl bankPush o.mfHist, dmfHist := s.operands.foldl bankPush o.dmfHist
          tau := o.tau + ys.length * o.del - nx, bf := bf, b := b, dc := dc })
        .ok (.outputs ys.length ys)) ∧
      bf = (o.tau + ys.length * o.del - nx) * o.m ∧ b = (bf + 1 / 2).floor ∧ ys.length ≤ nx * s.params.outCap

/-- EXECUTE of one sample is STEP, and of no sample responds `(0, [])` and changes no register (R139). -/
def Obligations.ExecuteOneIsStep : Prop :=
  (∀ s : State, exec (.execute 1) s = exec .step s) ∧
  ∀ (s : State) (o : Sync), s.obj = some o → s.operands = [] →
    exec (.execute 0) s = .next (answered s (some o) .ok (.outputs 0 []))

/-- EXECUTE repeats the step and concatenates the outputs: a batch is the first part of it, then the rest, for either
`NUM`. A fault in the first part ends the batch; one in the rest leaves the first part's effects; either way the fault
response replaces the batch response (R139). -/
def Obligations.ExecuteConcatenates : Prop :=
  (∀ (s : State) (o₁ o₂ : Sync) (xs ys us vs : List Value) (nx ny : Nat),
    exec (.execute nx) { s with operands := xs } = .next (answered s (some o₁) .ok (.outputs us.length us)) →
    exec (.execute ny) { s with obj := some o₁, operands := ys } =
      .next (answered s (some o₂) .ok (.outputs vs.length vs)) →
    exec (.execute (nx + ny)) { s with operands := xs ++ ys } =
      .next (answered s (some o₂) .ok (.outputs (us.length + vs.length) (us ++ vs)))) ∧
  (∀ (s : State) (o₁ o₂ : Sync) (xs ys us : List Value) (nx ny : Nat) (c : FaultCode),
    operandsOk s.params (.execute ny) ys = true →
    exec (.execute nx) { s with operands := xs } = .next (answered s (some o₁) .ok (.outputs us.length us)) →
    exec (.execute ny) { s with obj := some o₁, operands := ys } = .next (latched s (some o₂) c) →
    exec (.execute (nx + ny)) { s with operands := xs ++ ys } = .next (latched s (some o₂) c)) ∧
  (∀ (s : State) (o₁ : Sync) (xs ys : List Value) (nx ny : Nat) (c : FaultCode),
    operandsOk s.params (.execute ny) ys = true →
    exec (.execute nx) { s with operands := xs } = .next (latched s (some o₁) c) →
    exec (.execute (nx + ny)) { s with operands := xs ++ ys } = .next (latched s (some o₁) c))

/-- The output count of a batch at a fixed step, from `TAU = 0`: `ceil((N - 1/(2M)) / DEL)`, while locked or with the loop
disabled at the nominal step (R142, an inference of the spec). -/
def Obligations.FixedStepOutputCount : Prop :=
  ∀ (s : State) (o o' : Sync) (nx n : Nat) (ys : List Value),
    s.params.num = .exact → s.obj = some o → ObjectInv s.params o → o.tau = 0 → 1 ≤ nx →
    s.params.lockSkipCountsOutput = false →
    (o.locked = true ∨ (o.lfB.c0 = 0 ∧ o.del = (o.k : Rat) / (o.kOut : Rat))) →
    exec (.execute nx) s = .next (answered s (some o') .ok (.outputs n ys)) →
    (n : Int) = ⌈((nx : Rat) - 1 / (2 * (o.m : Rat))) / o.del⌉

/-- A STEP that completes responds with as many samples as it counts, at most `OUT_CAP`, for either `NUM` (R138). -/
def Obligations.OutputCountBounded : Prop :=
  ∀ (s : State) (o : Sync) (n : Nat) (ys : List Value),
    exec .step s = .next (answered s (some o) .ok (.outputs n ys)) → n = ys.length ∧ n ≤ s.params.outCap

/-- While locked, STEP and EXECUTE leave `DEL`, `TAU_DECIM` and `LF_W` as they are, for either `NUM`, even where they
fault (R145, an inference of the spec). -/
def Obligations.LockFreezesLoop : Prop :=
  ∀ (s t : State) (o o' : Sync) (i : Instr), (i = .step ∨ ∃ nx, i = .execute nx) →
    s.obj = some o → o.locked = true → exec i s = .next t → t.obj = some o' →
    o'.del = o.del ∧ o'.tauDecim = o.tauDecim ∧ o'.lfW = o.lfW

/-- `DC <= K_OUT` is kept by STEP and EXECUTE, for either `NUM` (R44, an inference of the spec). -/
def Obligations.DecimationCounterBounded : Prop :=
  ∀ (s t : State) (o o' : Sync) (i : Instr), (i = .step ∨ ∃ nx, i = .execute nx) →
    s.obj = some o → 1 ≤ o.kOut → o.dc ≤ o.kOut → exec i s = .next t → t.obj = some o' → o'.dc ≤ o'.kOut

/-- Under exact `NUM` no bank is executed outside `[0, M)` and no arithmetic fault is raised (R141, an inference of the
spec; R10). -/
def Obligations.BankIndexInRange : Prop :=
  ∀ (s t : State) (i : Instr), s.Inv → s.fault = none → exec i s = .next t →
    t.fault ≠ some .bankIndexOutOfRange ∧ t.fault ≠ some .numericUndefined

/-! Who writes what, for every command and either `NUM`. -/

/-- The configuration registers `K`, `M`, `LEN`, `H` and `DH` are written by CREATE and CREATE_RNYQ alone (R23 to R26). -/
def Obligations.ConfigurationWriters : Prop :=
  ∀ (i : Instr) (s t : State) (o o' : Sync), exec i s = .next t → s.obj = some o → t.obj = some o' →
    (∀ k m len, i ≠ .create k m len) → (∀ k m ftype d, i ≠ .createRnyq k m ftype d) →
    o'.k = o.k ∧ o'.m = o.m ∧ o'.len = o.len ∧ o'.h = o.h ∧ o'.dh = o.dh

/-- Among the commands that do not construct, SET_OUTPUT_RATE alone writes `K_OUT` and `RATE`, SET_LOOP_BW alone the loop
coefficients, LOCK and UNLOCK alone `LOCKED` (R21, R28, R29, R36). -/
def Obligations.ControlWriters : Prop :=
  ∀ (i : Instr) (s t : State) (o o' : Sync), exec i s = .next t → s.obj = some o → t.obj = some o' →
    (∀ k m len, i ≠ .create k m len) → (∀ k m ftype d, i ≠ .createRnyq k m ftype d) →
    ((∀ kOut, i ≠ .setOutputRate kOut) → o'.kOut = o.kOut ∧ o'.rate = o.rate) ∧
    (i ≠ .setLoopBw → o'.lfB = o.lfB ∧ o'.lfA = o.lfA) ∧
    (i ≠ .lock → i ≠ .unlock → o'.locked = o.locked)

/-- Among the commands that do not construct, STEP, EXECUTE and RESET alone write the phase, the counter, the loop memory
and the histories, and they, SET_RATE and SET_OUTPUT_RATE alone write `DEL` (R30 to R37). -/
def Obligations.PhaseWriters : Prop :=
  ∀ (i : Instr) (s t : State) (o o' : Sync), exec i s = .next t → s.obj = some o → t.obj = some o' →
    (∀ k m len, i ≠ .create k m len) → (∀ k m ftype d, i ≠ .createRnyq k m ftype d) →
    i ≠ .step → (∀ nx, i ≠ .execute nx) → i ≠ .reset →
    (o'.tau = o.tau ∧ o'.tauDecim = o.tauDecim ∧ o'.bf = o.bf ∧ o'.b = o.b ∧ o'.dc = o.dc ∧ o'.lfW = o.lfW ∧
      o'.mfHist = o.mfHist ∧ o'.dmfHist = o.dmfHist) ∧
    (i ≠ .setRate → (∀ kOut, i ≠ .setOutputRate kOut) → o'.del = o.del)

/-- `MODE` leaves CONFIGURED only by DESTROY or a construction that did not succeed, and enters it only by a construction
that responds OK (R20). That a construction which faults, under binary32, leaves no object is the model's choice (LOG 16;
R160 writes `MODE` first). -/
def Obligations.ModeTransitions : Prop :=
  ∀ (i : Instr) (s t : State), exec i s = .next t →
    (s.mode = .configured → t.mode = .unconfigured →
      (i = .destroy ∧ t = answered s none .ok .none) ∨
      (((∃ k m len, i = .create k m len) ∨ ∃ k m ftype d, i = .createRnyq k m ftype d) ∧
        t ≠ answered s none .ok .none)) ∧
    (s.mode = .unconfigured → t.mode = .configured →
      ((∃ k m len, i = .create k m len) ∨ ∃ k m ftype d, i = .createRnyq k m ftype d) ∧
        t = answered s t.obj .ok .none)

/-- No step changes a parameter of the machine: the model's choice to hold them in the state (LOG 3). -/
def Obligations.StepKeepsParameters : Prop :=
  ∀ s t : State, step s = .next t → t.params = s.params

/-! Invariants. -/

/-- The state after power-on reset has the invariant, whatever the OPEN parameters are. -/
def Obligations.ResetSatisfiesInvariant : Prop := State.reset.Inv ∧ State.reset.Shaped

/-- Every step keeps, under exact `NUM`, the invariant of R43 (phase, `DEL > 0`), `B` in its range (R34), `RATE = K_OUT/K`
(R29), loop coefficients that `LFCoeffs` gives (R36, R109), and the legal values, lengths and types of R23 to R28, R35 and
R37. How many samples an external bank's history holds is the model's choice (LOG 4). -/
def Obligations.StepKeepsInvariant : Prop :=
  ∀ s t : State, s.Inv → step s = .next t → t.Inv

/-- Every step keeps the legal values of the configuration registers, the lengths and types of the stores, and
`MF_HIST = DMF_HIST`, for either `NUM` and even where it faults (R23 to R28, R35, R37, R43 (a), R106). Where a
construction faults, under binary32, it leaves no object: the model's choice (LOG 16). How many samples an external bank's
history holds is the model's choice too (LOG 4). -/
def Obligations.StepKeepsShape : Prop :=
  ∀ s t : State, s.Shaped → step s = .next t → t.Shaped

/-! A STEP as its iterations. -/

/-- A STEP of any number of iterations, under exact `NUM`: it pushes the sample into both banks (R131), runs the
iterations one after another while `B < M` (R132), each from the run the one before it left, then wraps once (R137) and
responds with the outputs in the order of the iterations (R138). A fault of any of them leaves the registers as that
iteration wrote them. -/
def Obligations.StepRunsIterations : Prop :=
  ∀ (s : State) (o : Sync) (x : Value) (n : Nat), s.params.num = .exact → s.obj = some o → s.operands = [x] →
    operandsOk s.params .step s.operands = true → 1 ≤ o.kOut →
    (∀ r : Run,
      runIterations s.params n
        { obj := { o with mfHist := bankPush o.mfHist x, dmfHist := bankPush o.dmfHist x }, outs := [] } = .ok r →
      (r.obj.m : Int) ≤ r.obj.b →
      exec .step s = .next (answered s
        (some { r.obj with tau := r.obj.tau - 1, bf := r.obj.bf - r.obj.m, b := r.obj.b - r.obj.m })
        .ok (.outputs r.outs.length r.outs))) ∧
    (∀ (c : FaultCode) (o' : Sync),
      runIterations s.params n
        { obj := { o with mfHist := bankPush o.mfHist x, dmfHist := bankPush o.dmfHist x }, outs := [] } = .error (c, o') →
      exec .step s = .next (latched s (some o') c))
end

