-- ==== Sys2Proof/Laws/State.lean ====
section
/-! SUPPORT. What each field of the state is after each update of it: true by definition. -/

namespace Sys2Proof.Machine

section Respond
variable (s : State) (r : Response)

@[simp] theorem State.respond_params : (s.respond r).params = s.params := rfl
@[simp] theorem State.respond_fault : (s.respond r).fault = s.fault := rfl
@[simp] theorem State.respond_obj : (s.respond r).obj = s.obj := rfl
@[simp] theorem State.respond_word : (s.respond r).word = s.word := rfl
@[simp] theorem State.respond_operands : (s.respond r).operands = [] := rfl
@[simp] theorem State.respond_inbox : (s.respond r).inbox = s.inbox := rfl
@[simp] theorem State.respond_outbox : (s.respond r).outbox = s.outbox ++ [r] := rfl

end Respond

section RespondOk
variable (s : State) (p : Payload)

@[simp] theorem State.respondOk_params : (s.respondOk p).params = s.params := rfl
@[simp] theorem State.respondOk_fault : (s.respondOk p).fault = s.fault := rfl
@[simp] theorem State.respondOk_obj : (s.respondOk p).obj = s.obj := rfl
@[simp] theorem State.respondOk_word : (s.respondOk p).word = s.word := rfl
@[simp] theorem State.respondOk_operands : (s.respondOk p).operands = [] := rfl
@[simp] theorem State.respondOk_inbox : (s.respondOk p).inbox = s.inbox := rfl
@[simp] theorem State.respondOk_outbox : (s.respondOk p).outbox = s.outbox ++ [⟨.ok, p⟩] := rfl

end RespondOk

section RespondError
variable (s : State) (e : ErrorCode)

@[simp] theorem State.respondError_params : (s.respondError e).params = s.params := rfl
@[simp] theorem State.respondError_fault : (s.respondError e).fault = s.fault := rfl
@[simp] theorem State.respondError_obj : (s.respondError e).obj = s.obj := rfl
@[simp] theorem State.respondError_word : (s.respondError e).word = s.word := rfl
@[simp] theorem State.respondError_operands : (s.respondError e).operands = [] := rfl
@[simp] theorem State.respondError_inbox : (s.respondError e).inbox = s.inbox := rfl
@[simp] theorem State.respondError_outbox :
    (s.respondError e).outbox = s.outbox ++ [⟨.error e, .none⟩] := rfl

end RespondError

section RaiseFault
variable (s : State) (c : FaultCode)

@[simp] theorem State.raiseFault_params : (s.raiseFault c).params = s.params := rfl
@[simp] theorem State.raiseFault_fault : (s.raiseFault c).fault = some c := rfl
@[simp] theorem State.raiseFault_obj : (s.raiseFault c).obj = s.obj := rfl
@[simp] theorem State.raiseFault_word : (s.raiseFault c).word = s.word := rfl
@[simp] theorem State.raiseFault_operands : (s.raiseFault c).operands = [] := rfl
@[simp] theorem State.raiseFault_inbox : (s.raiseFault c).inbox = s.inbox := rfl
@[simp] theorem State.raiseFault_outbox :
    (s.raiseFault c).outbox = s.outbox ++ [⟨.fault c, .none⟩] := rfl

end RaiseFault

section Accept
variable (s : State) (c : Command) (rest : List Command)

@[simp] theorem State.accept_params : (s.accept c rest).params = s.params := rfl
@[simp] theorem State.accept_fault : (s.accept c rest).fault = s.fault := rfl
@[simp] theorem State.accept_obj : (s.accept c rest).obj = s.obj := rfl
@[simp] theorem State.accept_word : (s.accept c rest).word = some c.word := rfl
@[simp] theorem State.accept_operands : (s.accept c rest).operands = c.operands := rfl
@[simp] theorem State.accept_inbox : (s.accept c rest).inbox = rest := rfl
@[simp] theorem State.accept_outbox : (s.accept c rest).outbox = s.outbox := rfl

end Accept

section NoObject
variable (s : State)

@[simp] theorem State.noObject_params : s.noObject.params = s.params := rfl
@[simp] theorem State.noObject_fault : s.noObject.fault = s.fault := rfl
@[simp] theorem State.noObject_obj : s.noObject.obj = none := rfl
@[simp] theorem State.noObject_word : s.noObject.word = s.word := rfl
@[simp] theorem State.noObject_operands : s.noObject.operands = s.operands := rfl
@[simp] theorem State.noObject_inbox : s.noObject.inbox = s.inbox := rfl
@[simp] theorem State.noObject_outbox : s.noObject.outbox = s.outbox := rfl

end NoObject

section HostSide
variable (s : State) (c : Command)

@[simp] theorem State.submit_params : (s.submit c).params = s.params := rfl
@[simp] theorem State.submit_fault : (s.submit c).fault = s.fault := rfl
@[simp] theorem State.submit_obj : (s.submit c).obj = s.obj := rfl
@[simp] theorem State.submit_word : (s.submit c).word = s.word := rfl
@[simp] theorem State.submit_operands : (s.submit c).operands = s.operands := rfl
@[simp] theorem State.submit_inbox : (s.submit c).inbox = s.inbox ++ [c] := rfl
@[simp] theorem State.submit_outbox : (s.submit c).outbox = s.outbox := rfl
@[simp] theorem State.powerOn_params : s.powerOn.params = s.params := rfl
@[simp] theorem State.powerOn_fault : s.powerOn.fault = none := rfl
@[simp] theorem State.powerOn_obj : s.powerOn.obj = none := rfl
@[simp] theorem State.powerOn_word : s.powerOn.word = none := rfl
@[simp] theorem State.powerOn_operands : s.powerOn.operands = [] := rfl
@[simp] theorem State.powerOn_inbox : s.powerOn.inbox = [] := rfl
@[simp] theorem State.powerOn_outbox : s.powerOn.outbox = s.outbox := rfl
@[simp] theorem State.reset_obj : State.reset.obj = none := rfl
@[simp] theorem State.reset_fault : State.reset.fault = none := rfl
@[simp] theorem State.reset_params : State.reset.params = Config.params := rfl

end HostSide

section Push
variable (o : Sync) (x : Value)

@[simp] theorem pushSample_mfHist : (pushSample o x).mfHist = bankPush o.mfHist x := rfl
@[simp] theorem pushSample_dmfHist : (pushSample o x).dmfHist = bankPush o.dmfHist x := rfl
@[simp] theorem pushSample_k : (pushSample o x).k = o.k := rfl
@[simp] theorem pushSample_m : (pushSample o x).m = o.m := rfl
@[simp] theorem pushSample_len : (pushSample o x).len = o.len := rfl
@[simp] theorem pushSample_h : (pushSample o x).h = o.h := rfl
@[simp] theorem pushSample_dh : (pushSample o x).dh = o.dh := rfl
@[simp] theorem pushSample_kOut : (pushSample o x).kOut = o.kOut := rfl
@[simp] theorem pushSample_rate : (pushSample o x).rate = o.rate := rfl
@[simp] theorem pushSample_del : (pushSample o x).del = o.del := rfl
@[simp] theorem pushSample_tau : (pushSample o x).tau = o.tau := rfl
@[simp] theorem pushSample_tauDecim : (pushSample o x).tauDecim = o.tauDecim := rfl
@[simp] theorem pushSample_bf : (pushSample o x).bf = o.bf := rfl
@[simp] theorem pushSample_b : (pushSample o x).b = o.b := rfl
@[simp] theorem pushSample_dc : (pushSample o x).dc = o.dc := rfl
@[simp] theorem pushSample_locked : (pushSample o x).locked = o.locked := rfl
@[simp] theorem pushSample_lfB : (pushSample o x).lfB = o.lfB := rfl
@[simp] theorem pushSample_lfA : (pushSample o x).lfA = o.lfA := rfl
@[simp] theorem pushSample_lfW : (pushSample o x).lfW = o.lfW := rfl

end Push

end Sys2Proof.Machine
end

