-- ==== Sys2Proof/Laws/Ops.lean ====
section
/-! SUPPORT. One lemma a shared operation: everything it can do. -/

namespace Sys2Proof.Machine

/-- `mode` is configured exactly when there is an object. -/
theorem State.mode_eq (s : State) : s.mode = if s.obj.isSome then .configured else .unconfigured := by
  unfold State.mode; cases s.obj <;> rfl

/-- Responding is the state `answered` describes. -/
theorem State.respond_eq_answered (s : State) (r : Response) :
    s.respond r = answered s s.obj r.status r.payload := rfl

/-- Raising a fault is the state `latched` describes. -/
theorem State.raiseFault_eq_latched (s : State) (c : FaultCode) :
    s.raiseFault c = latched s s.obj c := rfl

/-- The outcome of each ending. -/
theorem finish_eq (s : State) (e : Ending) :
    finish s e = match e with
      | .ok o p => .next (answered s (some o) .ok p)
      | .gone => .next (answered s none .ok .none)
      | .error c o => .next (answered s (some o) (.error c) .none)
      | .fault c o => .next (latched s (some o) c)
      | .hang => .fault .hang := by
  cases e <;> rfl

/-- The front end without an object. -/
theorem onObject_none {i : Instr} {s : State} {body : Sync → Ending} (h : s.obj = none) :
    onObject i s body = .next (latched s none
      (if operandsOk s.params i s.operands then .notConfigured else .malformedCommand)) := by
  unfold onObject; rw [h]; simp only [State.raiseFault_eq_latched, h]

/-- The front end with an object and the operands the command calls for. -/
theorem onObject_some {i : Instr} {s : State} {body : Sync → Ending} {o : Sync} (h : s.obj = some o)
    (ok : operandsOk s.params i s.operands = true) : onObject i s body = finish s (body o) := by
  unfold onObject; rw [h]; simp only [ok, if_true]

/-- The front end with operands the command does not call for. -/
theorem onObject_malformed {i : Instr} {s : State} {body : Sync → Ending}
    (bad : operandsOk s.params i s.operands = false) :
    onObject i s body = .next (latched s s.obj .malformedCommand) := by
  unfold onObject
  cases h : s.obj <;> simp [bad, State.raiseFault_eq_latched, h]

/-- Everything the front end can do, if it answers a next state. -/
theorem onObject_next {i : Instr} {s t : State} {body : Sync → Ending} (h : onObject i s body = .next t) :
    (t = latched s s.obj .malformedCommand ∧ operandsOk s.params i s.operands = false) ∨
    (t = latched s none .notConfigured ∧ s.obj = none ∧ operandsOk s.params i s.operands = true) ∨
    (∃ o, s.obj = some o ∧ operandsOk s.params i s.operands = true ∧ finish s (body o) = .next t) := by
  cases ok : operandsOk s.params i s.operands with
  | false =>
    rw [onObject_malformed ok] at h
    cases h
    exact .inl ⟨rfl, rfl⟩
  | true =>
    cases ho : s.obj with
    | none =>
      rw [onObject_none ho] at h
      simp only [ok, if_true] at h
      cases h
      exact .inr (.inl ⟨rfl, rfl, rfl⟩)
    | some o =>
      rw [onObject_some ho ok] at h
      exact .inr (.inr ⟨o, rfl, rfl, h⟩)

/-- Everything an ending can be, if its outcome is a next state. -/
theorem finish_next {s t : State} {e : Ending} (h : finish s e = .next t) :
    (∃ o p, e = .ok o p ∧ t = answered s (some o) .ok p) ∨
    (e = .gone ∧ t = answered s none .ok .none) ∨
    (∃ c o, e = .error c o ∧ t = answered s (some o) (.error c) .none) ∨
    (∃ c o, e = .fault c o ∧ t = latched s (some o) c) := by
  rw [finish_eq] at h
  cases e with
  | ok o p => cases h; exact .inl ⟨o, p, rfl, rfl⟩
  | gone => cases h; exact .inr (.inl ⟨rfl, rfl⟩)
  | error c o => cases h; exact .inr (.inr (.inl ⟨c, o, rfl, rfl⟩))
  | fault c o => cases h; exact .inr (.inr (.inr ⟨c, o, rfl, rfl⟩))
  | hang => cases h

/-- The front end of CREATE and CREATE_RNYQ. -/
theorem inAnyMode_eq (i : Instr) (s body : State) :
    inAnyMode i s body =
      .next (if operandsOk s.params i s.operands then body else latched s s.obj .malformedCommand) := rfl

/-- Everything `fetch` can do. -/
theorem fetch_cases (s : State) :
    (∃ c, s.fault = some c ∧ fetch s = .stuck c) ∨
    (s.fault = none ∧ s.inbox = [] ∧ fetch s = .idle) ∨
    (∃ c rest e, s.fault = none ∧ s.inbox = c :: rest ∧ decodeWord c.word = .error e ∧
      fetch s = .reserved ((s.accept c rest).raiseFault .reservedEncoding)) ∨
    (∃ c rest i, s.fault = none ∧ s.inbox = c :: rest ∧ decodeWord c.word = .ok i ∧
      fetch s = .run i (s.accept c rest)) := by
  unfold fetch
  cases hf : s.fault with
  | some c => exact .inl ⟨c, rfl, rfl⟩
  | none =>
    cases hi : s.inbox with
    | nil => exact .inr (.inl ⟨rfl, rfl, rfl⟩)
    | cons c rest =>
      cases hd : decodeWord c.word with
      | error e => exact .inr (.inr (.inl ⟨c, rest, e, rfl, rfl, hd, by simp [hd]⟩))
      | ok i => exact .inr (.inr (.inr ⟨c, rest, i, rfl, rfl, hd, by simp [hd]⟩))

/-- A computation placed at an object: its value, or its fault with that object. -/
@[simp] theorem atObj_ok {α : Type} (o : Sync) (a : α) : atObj o (.ok a) = .ok a := rfl
@[simp] theorem atObj_error {α : Type} (o : Sync) (c : FaultCode) :
    atObj (α := α) o (.error c) = .error (c, o) := rfl

@[simp] theorem atObj_eq_ok {α : Type} {o : Sync} {x : Except FaultCode α} {a : α} :
    atObj o x = .ok a ↔ x = .ok a := by
  cases x <;> simp
@[simp] theorem atObj_eq_error {α : Type} {o o' : Sync} {x : Except FaultCode α} {c : FaultCode} :
    atObj o x = .error (c, o') ↔ x = .error c ∧ o = o' := by
  cases x <;> simp

/-- If a sequence of writes succeeds, its first part did. -/
theorem writes_bind_ok {α β ε : Type} {x : Except ε α} {f : α → Except ε β} {b : β}
    (h : (x >>= f) = .ok b) : ∃ a, x = .ok a ∧ f a = .ok b := by
  cases x with
  | error e => cases h
  | ok a => exact ⟨a, rfl, h⟩

/-- If a sequence of writes faults, either its first part did or the rest did. -/
theorem writes_bind_error {α β ε : Type} {x : Except ε α} {f : α → Except ε β} {e : ε}
    (h : (x >>= f) = .error e) : x = .error e ∨ ∃ a, x = .ok a ∧ f a = .error e := by
  cases x with
  | error e' => cases h; exact .inl rfl
  | ok a => exact .inr ⟨a, rfl, h⟩

end Sys2Proof.Machine
end

