-- ==== Sys2Proof/Laws/Arith.lean ====
section
/-! SUPPORT. Under exact `NUM` every primitive is the field operation and never faults (00_scope.md R10). -/

namespace Sys2Proof.Machine

@[simp] theorem except_ok_bind {α β ε : Type} (a : α) (f : α → Except ε β) : (Except.ok a >>= f) = f a := rfl
@[simp] theorem except_error_bind {α β ε : Type} (e : ε) (f : α → Except ε β) :
    (Except.error e >>= f) = Except.error e := rfl
@[simp] theorem except_pure {α ε : Type} (a : α) : (pure a : Except ε α) = .ok a := rfl

@[simp] theorem norm_exact (v : Rat) : norm .exact v = .ok v := rfl
@[simp] theorem addNum_exact (a b : Rat) : addNum .exact a b = .ok (a + b) := rfl
@[simp] theorem subNum_exact (a b : Rat) : subNum .exact a b = .ok (a - b) := rfl
@[simp] theorem mulNum_exact (a b : Rat) : mulNum .exact a b = .ok (a * b) := rfl
@[simp] theorem divNum_exact (a b : Rat) : divNum .exact a b = .ok (a / b) := rfl
@[simp] theorem fit_exact (v : Rat) : fit .exact v = v := rfl
@[simp] theorem representable_exact (v : Rat) : representable .exact v = true := rfl

/-- A sum of values, by its kind and parts. -/
theorem addValue_exact (x y : Value) :
    ∃ z, addValue .exact x y = .ok z ∧ z.re = x.re + y.re ∧ z.im = x.im + y.im ∧
      (z.kind = .real ↔ x.kind = .real ∧ y.kind = .real) := by
  cases x <;> cases y <;>
    simp [addValue, realOf, complexOf, Value.re, Value.im, Value.kind]

/-- A product of values, by its kind and parts. -/
theorem mulValue_exact (x y : Value) :
    ∃ z, mulValue .exact x y = .ok z ∧ z.re = x.re * y.re - x.im * y.im ∧
      z.im = x.re * y.im + x.im * y.re ∧ (z.kind = .real ↔ x.kind = .real ∧ y.kind = .real) := by
  cases x <;> cases y <;>
    simp [mulValue, realOf, complexOf, mulRe, mulIm, Value.re, Value.im, Value.kind]

/-- A value divided by a number, by its kind and parts. -/
theorem divValue_exact (x : Value) (c : Rat) :
    ∃ z, divValue .exact x c = .ok z ∧ z.re = x.re / c ∧ z.im = x.im / c ∧ z.kind = x.kind := by
  cases x <;> simp [divValue, realOf, complexOf, Value.re, Value.im, Value.kind]

/-- `absNum` is the absolute value. -/
theorem absNum_eq_abs (v : Rat) : absNum v = |v| := by
  unfold absNum
  split
  · next h => exact (abs_of_neg h).symm
  · next h => exact (abs_of_nonneg (not_lt.mp h)).symm

/-- The iteration tail under exact `NUM`: the four registers it writes, or NumericRange with `B` not written. -/
theorem advance_exact {p : Params} (hp : p.num = .exact) (o : Sync) :
    advance p o =
      (let o' := { o with dc := (o.dc + 1) % 2 ^ p.dcWidth, tau := o.tau + o.del, bf := (o.tau + o.del) * o.m }
       if fitsB p (roundAway ((o.tau + o.del) * o.m)) then
         .ok { o' with b := roundAway ((o.tau + o.del) * o.m) }
       else .error (.numericRange, o')) := by
  simp [advance, hp]

/-- The wrap under exact `NUM`. -/
theorem wrap_exact {p : Params} (hp : p.num = .exact) (o : Sync) :
    wrap p o = .ok { o with tau := o.tau - 1, bf := o.bf - o.m, b := o.b - o.m } := by
  simp [wrap, hp]

/-- A bank's sub-filter has as many taps as its history has samples, for whichever `BANK`. -/
@[simp] theorem subFilter_length (p : Params) (proto : List Value) (m i : Nat) :
    (subFilter p proto m i).length = histLength p proto.length m := by
  unfold subFilter histLength
  cases p.bankSel <;> simp

theorem histLength_reference {p : Params} (h : p.bankSel = .reference) (len m : Nat) :
    histLength p len m = (len - 1) / m := by
  simp [histLength, h, subLength]

theorem histLength_external {p : Params} (h : p.bankSel = .external) (len m : Nat) : histLength p len m = len := by
  simp [histLength, h]

/-- A value brought to a kind is of that kind. -/
@[simp] theorem valueOfPair_kind (num : NumMode) (kind : Kind) (x : Rat × Rat) :
    (valueOfPair num kind x).kind = kind := by
  cases kind <;> rfl

/-- Under exact `NUM` `BT_INIT` is used as it is. -/
theorem initialBandwidth_exact {p : Params} (hp : p.num = .exact) : initialBandwidth p = p.btInit := by
  simp [initialBandwidth, hp]

/-- The taps of a sub-filter are of type `C`, for whichever `BANK`, where the prototype's coefficients are. -/
theorem subFilter_kind {p : Params} {proto : List Value} (h : ∀ v ∈ proto, v.kind = coefKind p.types) {m i : Nat}
    {v : Value} (hv : v ∈ subFilter p proto m i) : v.kind = coefKind p.types := by
  unfold subFilter at hv
  split at hv
  · obtain ⟨j, -, rfl⟩ := List.mem_map.mp hv
    rw [List.getD_eq_getElem?_getD]
    cases hj : proto[i + j * m]? with
    | none => cases hk : coefKind p.types <;> rfl
    | some w => exact h w (List.mem_of_getElem? hj)
  · obtain ⟨j, -, rfl⟩ := List.mem_map.mp hv
    exact valueOfPair_kind _ _ _

/-- A sum of products under exact `NUM` never faults. -/
theorem dotFrom_exact_ok (acc : Value) (ts xs : List Value) : ∃ v, dotFrom .exact acc ts xs = .ok v := by
  induction ts generalizing acc xs with
  | nil => exact ⟨acc, by simp [dotFrom]⟩
  | cons t ts ih =>
    cases xs with
    | nil => exact ⟨acc, by simp [dotFrom]⟩
    | cons x xs =>
      obtain ⟨q, hq, -⟩ := mulValue_exact t x
      obtain ⟨a, ha, -⟩ := addValue_exact acc q
      obtain ⟨v, hv⟩ := ih a xs
      exact ⟨v, by simp [dotFrom, hq, ha, hv]⟩

/-- A bank executed inside its range never faults under exact `NUM`. -/
theorem bankExec_exact_ok {p : Params} (hp : p.num = .exact) {proto : List Value} {m : Nat}
    {hist : List Value} {i : Int} (h0 : 0 ≤ i) (h1 : i < m) :
    ∃ v, bankExec p proto m hist i = .ok v := by
  unfold bankExec
  rw [if_neg (by omega), hp]
  exact dotFrom_exact_ok _ _ _

/-- A bank executed outside its range always faults. -/
theorem bankExec_out_of_range {p : Params} {proto : List Value} {m : Nat} {hist : List Value} {i : Int}
    (h : i < 0 ∨ (m : Int) ≤ i) : bankExec p proto m hist i = .error .bankIndexOutOfRange := if_pos h

end Sys2Proof.Machine
end

