-- ==== Sys2Proof/Laws/PerInstr.lean ====
section
/-! SUPPORT. Facts of every command as syntax, one lemma a constructor. -/

/-- The opcode byte of a command's word is the opcode 30_encoding.md R84 gives it. -/
def Sys2Proof.Laws.EncodedOpcode.Statement (i : Sys2Proof.Instr) : Prop :=
  i.wf = true → Sys2Proof.fieldOp (Sys2Proof.encode i) = i.opcode

namespace Sys2Proof.Laws

/-- The opcode byte of a packed word. -/
theorem fieldOp_packWord {op a b c : Nat} (ho : op < 2 ^ 8) (ha : a < 2 ^ 16) (hb : b < 2 ^ 16) (hc : c < 2 ^ 24) :
    fieldOp (packWord op a b c) = op := by
  simp only [fieldOp, bitField, packWord, BitVec.toNat_ofNat]
  omega

theorem EncodedOpcode.create (k m len : Nat) : EncodedOpcode.Statement (.create k m len) := by
  intro h
  simp only [Instr.wf, Bool.and_eq_true, decide_eq_true_eq] at h
  exact fieldOp_packWord (by decide) (by omega) (by omega) (by omega)

theorem EncodedOpcode.createRnyq (k m ftype symDelay : Nat) :
    EncodedOpcode.Statement (.createRnyq k m ftype symDelay) := by
  intro h
  simp only [Instr.wf, Bool.and_eq_true, decide_eq_true_eq] at h
  exact fieldOp_packWord (by decide) (by omega) (by omega) (by omega)

theorem EncodedOpcode.destroy : EncodedOpcode.Statement .destroy := fun _ => by decide
theorem EncodedOpcode.reset : EncodedOpcode.Statement .reset := fun _ => by decide
theorem EncodedOpcode.lock : EncodedOpcode.Statement .lock := fun _ => by decide
theorem EncodedOpcode.unlock : EncodedOpcode.Statement .unlock := fun _ => by decide
theorem EncodedOpcode.setRate : EncodedOpcode.Statement .setRate := fun _ => by decide

theorem EncodedOpcode.setOutputRate (kOut : Nat) : EncodedOpcode.Statement (.setOutputRate kOut) := by
  intro h
  simp only [Instr.wf, decide_eq_true_eq] at h
  exact fieldOp_packWord (by decide) (by decide) (by decide) h

theorem EncodedOpcode.setLoopBw : EncodedOpcode.Statement .setLoopBw := fun _ => by decide
theorem EncodedOpcode.getTau : EncodedOpcode.Statement .getTau := fun _ => by decide
theorem EncodedOpcode.step : EncodedOpcode.Statement .step := fun _ => by decide

theorem EncodedOpcode.execute (nx : Nat) : EncodedOpcode.Statement (.execute nx) := by
  intro h
  simp only [Instr.wf, decide_eq_true_eq] at h
  exact fieldOp_packWord (by decide) (by decide) (by decide) h

theorem EncodedOpcode.print : EncodedOpcode.Statement .print := fun _ => by decide

end Sys2Proof.Laws
end

