-- ==== Sys2Proof/Laws/Stepping.lean ====
section
/-! SUPPORT. What one iteration, the inner loop and one STEP can do. -/

namespace Sys2Proof.Machine

/-- A push keeps the length of the history. -/
@[simp] theorem bankPush_length (hist : List Value) (x : Value) : (bankPush hist x).length = hist.length := by
  simp [bankPush]

/-- Everything the head of an iteration can do, if it does not fault. -/
theorem iterationHead_ok {p : Params} {r : Run} {v : Value × Value} (h : iterationHead p r = .ok v) :
    bankExec p r.obj.h r.obj.m r.obj.mfHist r.obj.b = .ok v.1 ∧ r.outs.length < p.outCap ∧
      divValue p.num v.1 r.obj.k = .ok v.2 := by
  unfold iterationHead at h
  cases hb : bankExec p r.obj.h r.obj.m r.obj.mfHist r.obj.b with
  | error c => simp [hb] at h
  | ok mf =>
    simp only [hb, atObj_ok, except_ok_bind] at h
    split at h
    · cases h
    · next hc =>
      cases hd : divValue p.num mf r.obj.k with
      | error c => simp [hd] at h
      | ok y =>
        simp only [hd, atObj_ok, except_ok_bind, except_pure, Except.ok.injEq] at h
        subst h
        exact ⟨rfl, by omega, hd⟩

/-- A fault in the head of an iteration leaves the object as it was. -/
theorem iterationHead_error {p : Params} {r : Run} {c : FaultCode} {o : Sync}
    (h : iterationHead p r = .error (c, o)) : o = r.obj := by
  unfold iterationHead at h
  cases hb : bankExec p r.obj.h r.obj.m r.obj.mfHist r.obj.b with
  | error c => simp [hb] at h; exact h.2.symm
  | ok mf =>
    simp only [hb, atObj_ok, except_ok_bind] at h
    split at h
    · simp at h; exact h.2.symm
    · cases hd : divValue p.num mf r.obj.k with
      | error c => simp [hd] at h; exact h.2.symm
      | ok y => simp [hd] at h

/-- Everything the iteration tail can do, if it does not fault. -/
theorem iterationTail_ok {p : Params} {outs : List Value} {o : Sync} {y : Value} {r : Run}
    (h : iterationTail p outs o y = .ok r) :
    ∃ o', advance p o = .ok o' ∧ r = { obj := o', outs := outs ++ [y] } := by
  obtain ⟨o', ho, h⟩ := writes_bind_ok h
  exact ⟨o', ho, by simpa using h.symm⟩

/-- Everything one iteration can do, if it does not fault: a locked skip, an unlocked update with its tail, or a tail
alone. -/
theorem iteration_ok {p : Params} {r r' : Run} (h : iteration p r = .ok r') :
    ∃ mf y, iterationHead p r = .ok (mf, y) ∧
      ((r.obj.dc = r.obj.kOut ∧ r.obj.locked = true ∧ r' = lockedSkip p r y) ∨
       (r.obj.dc = r.obj.kOut ∧ r.obj.locked = false ∧
          ∃ o₁ o₂, loopUpdate p { r.obj with dc := 0 } mf = .ok o₁ ∧ advance p o₁ = .ok o₂ ∧
            r' = { obj := o₂, outs := r.outs ++ [y] }) ∨
       (r.obj.dc ≠ r.obj.kOut ∧
          ∃ o₂, advance p r.obj = .ok o₂ ∧ r' = { obj := o₂, outs := r.outs ++ [y] })) := by
  obtain ⟨v, hv, h⟩ := writes_bind_ok h
  refine ⟨v.1, v.2, hv, ?_⟩
  unfold iterationRest at h
  split at h
  · next hdc =>
    split at h
    · next hl => exact .inl ⟨hdc, hl, by simpa using h.symm⟩
    · next hl =>
      obtain ⟨o₁, h1, h⟩ := writes_bind_ok h
      obtain ⟨o₂, h2, h⟩ := iterationTail_ok h
      exact .inr (.inl ⟨hdc, by simpa using hl, o₁, o₂, h1, h2, h⟩)
  · next hdc => exact .inr (.inr ⟨hdc, iterationTail_ok h⟩)

/-- Everything the unlocked update can do, if it does not fault. -/
theorem loopUpdate_ok {p : Params} {o o' : Sync} {mf : Value} (h : loopUpdate p o mf = .ok o') :
    ∃ dmf e q w nominal d, bankExec p o.dh o.m o.dmfHist o.b = .ok dmf ∧ ted p.num mf dmf = .ok e ∧
      lfExec p.num o.lfB o.lfA o.lfW e = .ok (q, w) ∧ divNum p.num o.k o.kOut = .ok nominal ∧
      addNum p.num nominal q = .ok d ∧ 0 < d ∧ o' = { o with lfW := w, del := d, tauDecim := o.tau } := by
  unfold loopUpdate at h
  obtain ⟨dmf, h1, h⟩ := writes_bind_ok h
  obtain ⟨e, h2, h⟩ := writes_bind_ok h
  obtain ⟨⟨q, w⟩, h3, h⟩ := writes_bind_ok h
  obtain ⟨nominal, h4, h⟩ := writes_bind_ok h
  obtain ⟨d, h5, h⟩ := writes_bind_ok h
  rw [atObj_eq_ok] at h1 h2 h3 h4 h5
  split at h
  · cases h
  · next hd => exact ⟨dmf, e, q, w, nominal, d, h1, h2, h3, h4, h5, not_le.mp hd, by simpa using h.symm⟩

/-- Everything the loop test can do. -/
theorem innerLoop_succ (p : Params) (fuel : Nat) (r : Run) :
    innerLoop p (fuel + 1) r =
      if r.obj.b < (r.obj.m : Int) then
        match iteration p r with
        | .error e => some (.error e)
        | .ok r' => innerLoop p fuel r'
      else some (.ok r) := rfl

/-- Everything one more of a number of iterations can do. -/
theorem runIterations_succ (p : Params) (n : Nat) (r : Run) :
    runIterations p (n + 1) r =
      if r.obj.b < (r.obj.m : Int) then
        match iteration p r with
        | .error e => .error e
        | .ok r' => runIterations p n r'
      else .ok r := rfl

/-- A property of the run that every iteration keeps holds where the inner loop ends without a fault. -/
theorem innerLoop_induct {p : Params} {P : Run → Prop}
    (keep : ∀ r r', P r → r.obj.b < (r.obj.m : Int) → iteration p r = .ok r' → P r') :
    ∀ (fuel : Nat) (r r' : Run), P r → innerLoop p fuel r = some (.ok r') →
      P r' ∧ (r'.obj.m : Int) ≤ r'.obj.b
  | 0, _, _, _, h => by simp [innerLoop] at h
  | fuel + 1, r, r', hP, h => by
    rw [innerLoop_succ] at h
    split at h
    · next hlt =>
      cases hi : iteration p r with
      | error e => simp [hi] at h
      | ok r₁ =>
        rw [hi] at h
        exact innerLoop_induct keep fuel r₁ r' (keep r r₁ hP hlt hi) h
    · next hge =>
      simp only [Option.some.injEq, Except.ok.injEq] at h
      subst h
      exact ⟨hP, not_lt.mp hge⟩

/-- Everything one STEP can do, if it completes: the loop from the pushed object, then the wrap. -/
theorem stepBody_ok {p : Params} {o : Sync} {x : Value} {r : Run} (h : stepBody p o x = some (.ok r)) :
    ∃ r₁ o', innerLoop p (loopFuel p) { obj := pushSample o x, outs := [] } = some (.ok r₁) ∧
      wrap p r₁.obj = .ok o' ∧ r = { obj := o', outs := r₁.outs } := by
  unfold stepBody at h
  split at h
  · cases h
  · cases h
  · next r₁ hr =>
    split at h
    · cases h
    · next o' ho => exact ⟨r₁, o', hr, ho, by simpa using h.symm⟩

end Sys2Proof.Machine
end

