-- ==== Sys2Proof/Tests/Slice0.lean ====
section
/-! SUPPORT. Tests of the model on words and values written out from the spec (95_test_vectors.md and the rules' own
examples), and for each statement with hypotheses a witness that meets them. -/

namespace Sys2Proof.Tests

/-! The tests are checked one after another, until this namespace ends: checked at once they wait for each other, each in
a thread of its own. -/

set_option Elab.async false

open Sys2Proof.Machine

/-! Well-formed commands: one ill-formed term for each check. -/

theorem test_wf_create_k : (Instr.create 65536 2 5).wf = false := by decide
theorem test_wf_create_m : (Instr.create 2 65536 5).wf = false := by decide
theorem test_wf_create_len : (Instr.create 2 2 16777216).wf = false := by decide
theorem test_wf_rnyq_k : (Instr.createRnyq 65536 4 0 3).wf = false := by decide
theorem test_wf_rnyq_m : (Instr.createRnyq 2 65536 0 3).wf = false := by decide
theorem test_wf_rnyq_type : (Instr.createRnyq 2 4 256 3).wf = false := by decide
theorem test_wf_rnyq_delay : (Instr.createRnyq 2 4 0 65536).wf = false := by decide
theorem test_wf_kOut : (Instr.setOutputRate 16777216).wf = false := by decide
theorem test_wf_nx : (Instr.execute 16777216).wf = false := by decide
theorem test_wf_largest : (Instr.create 65535 65535 16777215).wf = true := by decide

/-! Decoding: words from 30_encoding.md section 2, section 4 and 95_test_vectors.md. -/

theorem test_decode_create : decodeWord 0x0100020008000021 = .ok (.create 2 8 33) := by decide
theorem test_decode_create_fields : decodeWord 0x01FFFE0001800003 = .ok (.create 65534 1 8388611) := by decide
theorem test_decode_createRnyq : decodeWord 0x0200020004010003 = .ok (.createRnyq 2 4 1 3) := by decide
theorem test_decode_destroy : decodeWord 0x0300000000000000 = .ok .destroy := by decide
theorem test_decode_reset : decodeWord 0x0400000000000000 = .ok .reset := by decide
theorem test_decode_lock : decodeWord 0x0500000000000000 = .ok .lock := by decide
theorem test_decode_unlock : decodeWord 0x0600000000000000 = .ok .unlock := by decide
theorem test_decode_setRate : decodeWord 0x0700000000000000 = .ok .setRate := by decide
theorem test_decode_setOutputRate : decodeWord 0x0800000000FFFFFF = .ok (.setOutputRate 16777215) := by decide
theorem test_decode_setLoopBw : decodeWord 0x0900000000000000 = .ok .setLoopBw := by decide
theorem test_decode_getTau : decodeWord 0x0A00000000000000 = .ok .getTau := by decide
theorem test_decode_step : decodeWord 0x0B00000000000000 = .ok .step := by decide
theorem test_decode_execute : decodeWord 0x0C000000000007D0 = .ok (.execute 2000) := by decide
theorem test_decode_print : decodeWord 0x0D00000000000000 = .ok .print := by decide
theorem test_decode_zero : decodeWord 0x0000000000000000 = .error (.illegalOpcode 0) := by decide
theorem test_decode_reserved : decodeWord 0x0E00000000000000 = .error (.illegalOpcode 14) := by decide
theorem test_decode_reset_c : decodeWord 0x0400000000000001 = .error (.mustBeZero 4) := by decide
theorem test_decode_setOutputRate_a : decodeWord 0x0800010000000004 = .error (.mustBeZero 8) := by decide
theorem test_encode_rnyq : encode (.createRnyq 2 4 1 3) = 0x0200020004010003 := by decide
theorem test_table_step : decodeTableWord 64 0x0B00000000000000 = some .step := by decide

/-! States for the tests: the parameters of 95_test_vectors.md, and "Setup H5". -/

/-- The parameters the vectors use. -/
def vectorParams : Params := ⟨.exact, .rrr, .reference, .reference, 1 / 2, 64, false, 32, 32⟩

/-- Real values. -/
def reals (xs : List Rat) : List Value := xs.map Value.real

/-- The object of Setup H5 at `bt = 1/2`. -/
def objH5 : Sync := {
  k := 2, m := 2, len := 5, h := reals [1, 2, 3, 4, 5], dh := reals [-3 / 250, 1 / 125, 1 / 125, 1 / 125, -3 / 250]
  kOut := 1, rate := 1 / 2, del := 2, tau := 0, tauDecim := 0, bf := 0, b := 0, dc := 0, locked := false
  lfB := ⟨11 / 100, 0, 0⟩, lfA := ⟨3 / 4, -99 / 400, 0⟩, lfW := ⟨0, 0, 0⟩
  mfHist := reals [0, 0], dmfHist := reals [0, 0] }

/-- A unit with the vectors' parameters, the given object and the given operands on the channel. -/
def unit (obj : Option Sync) (ops : List Value) : State :=
  { State.reset with params := vectorParams, obj := obj, operands := ops }

/-- The next state, if there is one. -/
def nextState : Host.Outcome State Fault Refusal → Option State
  | .next s => some s
  | .fault _ => none
  | .refused _ => none

/-- The object of the next state. -/
def nextObj (r : Host.Outcome State Fault Refusal) : Option Sync := (nextState r).bind State.obj

/-- The last response of the next state. -/
def lastResponse (r : Host.Outcome State Fault Refusal) : Option Response :=
  (nextState r).bind (fun s => s.outbox.getLast?)

/-- What `nextState` says of an outcome. -/
theorem eq_next {r : Host.Outcome State Fault Refusal} {s : State} (h : nextState r = some s) : r = .next s := by
  cases r with
  | next t => simpa [nextState] using h
  | fault f => simp [nextState] at h
  | refused f => simp [nextState] at h

/-! Meanings. -/

/-- 42_lifecycle.md R160, example. -/
theorem test_create : nextObj (exec (.create 2 2 5) (unit none (reals [1, 2, 3, 4, 5]))) = some objH5 := by
  decide +kernel

/-- 95_test_vectors.md V-L1: `len = 0` is checked before `M = 0`. -/
theorem test_create_order : lastResponse (exec (.create 2 0 0) (unit none [])) =
    some ⟨.error .invalidFilterLength, .none⟩ := by decide +kernel

/-- V-L2. -/
theorem test_createRnyq_rolloff : lastResponse (exec (.createRnyq 2 4 0 3) (unit none [.real (3 / 2)])) =
    some ⟨.error .invalidRolloff, .none⟩ := by decide +kernel

/-- V-L3: a failed construction leaves no object. -/
theorem test_createRnyq_clears : nextObj (exec (.createRnyq 1 4 0 0) (unit (some objH5) [.real 0])) = none := by
  decide +kernel

/-- V-L5. -/
theorem test_destroy : nextObj (exec .destroy (unit (some objH5) [])) = none := by decide +kernel

/-- V-L6: the override and the phase are gone, `LOCKED` is kept. -/
theorem test_reset : nextObj (exec .reset (unit (some { objH5 with
    del := 3, tau := 1, bf := 2, b := 2, dc := 1, locked := true, lfW := ⟨1, 2, 3⟩, mfHist := reals [6, 5],
    dmfHist := reals [6, 5] }) [])) = some { objH5 with locked := true } := by decide +kernel

/-- V-K1. -/
theorem test_lock : nextObj (exec .lock (unit (some objH5) [])) = some { objH5 with locked := true } := by
  decide +kernel
theorem test_unlock : nextObj (exec .unlock (unit (some { objH5 with locked := true }) [])) = some objH5 := by
  decide +kernel

/-- V-K2. -/
theorem test_setRate : nextObj (exec .setRate (unit (some objH5) [.real (1 / 3)])) = some { objH5 with del := 3 } := by
  decide +kernel
theorem test_setRate_zero : (nextState (exec .setRate (unit (some objH5) [.real 0]))).map State.fault =
    some (some .nonPositiveStep) := by decide +kernel

/-- V-K3. -/
theorem test_setOutputRate : nextObj (exec (.setOutputRate 4) (unit (some objH5) [])) =
    some { objH5 with kOut := 4, rate := 2, del := 1 / 2 } := by decide +kernel
theorem test_setOutputRate_zero : lastResponse (exec (.setOutputRate 0) (unit (some objH5) [])) =
    some ⟨.error .invalidOutputRate, .none⟩ := by decide +kernel

/-- V-C6, V-K4. -/
theorem test_setLoopBw : nextObj (exec .setLoopBw (unit (some objH5) [.real (1 / 100)])) =
    some { objH5 with lfB := ⟨11 / 5000, 0, 0⟩, lfA := ⟨101 / 200, -9801 / 20000, 0⟩ } := by decide +kernel
theorem test_setLoopBw_range : lastResponse (exec .setLoopBw (unit (some objH5) [.real (3 / 2)])) =
    some ⟨.error .invalidLoopBandwidth, .none⟩ := by decide +kernel

/-- V-K5: `TAU_DECIM`, not `TAU`. -/
theorem test_getTau : lastResponse (exec .getTau (unit (some { objH5 with tau := 1, tauDecim := -33 / 1250 }) [])) =
    some ⟨.ok, .number (-33 / 1250)⟩ := by decide +kernel

/-- V-K6. -/
theorem test_print : nextObj (exec .print (unit (some objH5) [])) = some objH5 := by decide +kernel

/-- V-S7, STEP 3: the first loop update, `q_hat = -33/1250`. -/
theorem test_step_update : nextObj (exec .step (unit (some { objH5 with
    dc := 1, mfHist := reals [2, 1], dmfHist := reals [2, 1] }) [.real 3])) =
    some { objH5 with
      dc := 1, mfHist := reals [3, 2], dmfHist := reals [3, 2], del := 2467 / 1250, tau := 1217 / 1250,
      bf := 1217 / 625, b := 2, lfW := ⟨-9 / 50, 0, 0⟩ } := by decide +kernel

/-- V-S8: the tie at the wrap, `B = 0` and not -1. -/
theorem test_step_tie : nextObj (exec .step (unit (some { objH5 with del := 3 / 4, locked := true }) [.real 1])) =
    some { objH5 with
      del := 3 / 4, locked := true, dc := 1, tau := -1 / 4, bf := -1 / 2, b := 0,
      mfHist := reals [1, 0], dmfHist := reals [1, 0] } := by decide +kernel

/-- P2, command 3. -/
theorem test_execute : lastResponse (exec (.execute 6) (unit (some objH5) (reals [1, 2, 3, 4, 5, 6]))) =
    some ⟨.ok, .outputs 3 (reals [1 / 2, 9 / 2, 17 / 2])⟩ := by decide +kernel

/-- P5: the locked skip under `LOCK_SKIP_COUNTS_OUTPUT = true`. -/
theorem test_execute_lockSkip : lastResponse (exec (.execute 6) { unit (some { objH5 with locked := true })
    (reals [1, 2, 3, 4, 5, 6]) with params := { vectorParams with lockSkipCountsOutput := true } }) =
    some ⟨.ok, .outputs 5 (reals [1 / 2, 9 / 2, 9 / 2, 17 / 2, 17 / 2])⟩ := by decide +kernel

/-- V-S14, STEP 3: complex samples under `CRC`. -/
theorem test_step_complex : lastResponse (exec .step { unit (some { objH5 with
    dc := 1, mfHist := [.complex 2 (-1), .complex 1 1], dmfHist := [.complex 2 (-1), .complex 1 1] })
    [.complex 0 1] with params := { vectorParams with types := .crc } }) =
    some ⟨.ok, .outputs 1 [.complex 3 (-1)]⟩ := by decide +kernel

/-- V-C11, `CCC` banks. -/
theorem test_bank_complex : bankExec { vectorParams with types := .ccc }
    [.complex 1 1, .complex 0 1, .complex 1 0, .complex 2 0, .complex 0 0] 2 [.complex 0 1, .complex 1 0] 0 =
    .ok (.complex 0 1) := by decide +kernel

/-- V-C7, third output at `bt = 1/2`. -/
theorem test_loopFilter : lfExec .exact ⟨11 / 100, 0, 0⟩ ⟨3 / 4, -99 / 400, 0⟩ ⟨133 / 100, 1, 0⟩ 1 =
    .ok (158279 / 750000, ⟨14389 / 10000, 133 / 100, 1⟩) := by decide +kernel

/-- V-C10. -/
theorem test_round : [5 / 2, -1 / 2, 49 / 100, -3 / 2, 3 / 2, -49 / 100, 7 / 2, 0].map roundAway =
    [3, -1, 0, -2, 2, 0, 4, 0] := by decide +kernel

/-- IEEE 754 binary32: 1/10, the overflow threshold, half the least subnormal. -/
theorem test_binary32 : [1 / 10, 2 ^ 128, 1 / 2 ^ 150, 16777217].map toBinary32 =
    [some (13421773 / 134217728), none, some 0, some 16777216] := by decide +kernel

/-- The binary32 result of `sqrt`: 2, a square, the least subnormal, out of range. -/
theorem test_root_binary32 : [2, 25, 1 / 2 ^ 298, 2 ^ 256].map rootBinary32 =
    [some (11863283 / 8388608), some 5, some (1 / 2 ^ 149), none] := by decide +kernel

/-- A modulus whose square is out of the binary32 range is finite: `|3*2^70 + 4*2^70 i|`. -/
theorem test_modulus_binary32 :
    modulusOf .binary32 .complex (modulusKey (.complex (3 * 2 ^ 70) (4 * 2 ^ 70))) = .ok (5 * 2 ^ 70) := by
  decide +kernel

/-- 00_scope.md R9: `RCC` is refused. -/
theorem test_types_rcc : sampleTypesOf .real .complex = none := by decide

/-- V-N1: the operand check comes before `MODE`. -/
theorem test_step_malformed : (nextState (step (State.submit (unit none []) ⟨0x0B00000000000000, []⟩))).map State.fault =
    some (some .malformedCommand) := by decide +kernel

/-- P3, rows 9 and 10: the latch, then stuck. -/
theorem test_step_stuck : nextState (step { unit none [] with fault := some .notConfigured }) = none := by
  decide +kernel

/-- Each row of the table, from reset, runs as the first command: STEP among them (LOG 11). -/
theorem test_first_step : (nextState (step (State.reset.withFetchWord 64 0x0B00000000000000))).isSome = true := by
  decide +kernel

/-! Witnesses: for each statement with hypotheses, a state and operands that meet them. -/

/-- The object of Setup H5 has the invariant. -/
theorem objH5_shape : ShapeOk vectorParams objH5 := by constructor <;> decide +kernel
theorem objH5_phase : PhaseOk vectorParams objH5 := by constructor <;> decide +kernel
theorem objH5_rate : RateOk objH5 := ⟨by decide +kernel, 1 / 2, by decide +kernel⟩
theorem objH5_inv : ObjectInv vectorParams objH5 := ⟨objH5_shape, objH5_phase, objH5_rate⟩

/-- Setup H5, locked. -/
def lockedH5 : Sync := { objH5 with locked := true }
theorem lockedH5_inv : ObjectInv vectorParams lockedH5 :=
  ⟨by constructor <;> decide +kernel, by constructor <;> decide +kernel, by decide +kernel, 1 / 2, by decide +kernel⟩

theorem vectorParams_ok : ParamsOk vectorParams := by constructor <;> decide +kernel

/-- A unit with the object of Setup H5 has the invariant of the unit. -/
theorem unit_inv (ops : List Value) : (unit (some objH5) ops).Inv :=
  ⟨vectorParams_ok, rfl, fun _ o h => by cases h; exact objH5_inv⟩

/-- A command waiting on the port. -/
def waiting (obj : Option Sync) (c : Command) : State := { unit obj [] with inbox := [c] }

theorem witness_DecodeOfEncode : ∃ i : Instr, i.wf = true := ⟨.create 65535 65535 16777215, by decide⟩

theorem witness_EncodeOfDecode : ∃ (w : Word) (i : Instr), decodeWord w = .ok i :=
  ⟨0x0800000000FFFFFF, .setOutputRate 16777215, by decide⟩

/-- Every word on the port of an unlatched unit meets the first two hypotheses. -/
theorem witness_waiting (w : Word) : (waiting none ⟨w, []⟩).fault = none ∧
    (waiting none ⟨w, []⟩).inbox = { word := w, operands := [] } :: [] := ⟨rfl, rfl⟩

/-- `OP` at 0x00, 0x0E and 0xFF. -/
theorem witness_ReservedOpcodeFaults : (0 : Word).toNat / 2 ^ 56 = 0 ∧
    14 ≤ (0x0E00000000000000 : Word).toNat / 2 ^ 56 ∧ 14 ≤ (0xFFFFFFFFFFFFFFFF : Word).toNat / 2 ^ 56 := by decide

/-- The lowest reserved bit and all of them, of DESTROY and PRINT; the lowest and all, of SET_OUTPUT_RATE and EXECUTE. -/
theorem witness_NonzeroReservedFieldFaults :
    ((0x0300000000000001 : Word).toNat / 2 ^ 56 = 3 ∧ (0x0300000000000001 : Word).toNat % 2 ^ 56 ≠ 0) ∧
    ((0x0DFFFFFFFFFFFFFF : Word).toNat / 2 ^ 56 = 13 ∧ (0x0DFFFFFFFFFFFFFF : Word).toNat % 2 ^ 56 ≠ 0) ∧
    ((0x0800000001000000 : Word).toNat / 2 ^ 56 = 8 ∧ (0x0800000001000000 : Word).toNat % 2 ^ 56 / 2 ^ 24 ≠ 0) ∧
    ((0x0CFFFFFFFF000000 : Word).toNat / 2 ^ 56 = 12 ∧ (0x0CFFFFFFFF000000 : Word).toNat % 2 ^ 56 / 2 ^ 24 ≠ 0) := by
  decide

theorem witness_StepRunsDecodedCommand : (waiting none ⟨0x0B00000000000000, [.real 1]⟩).fault = none ∧
    (waiting none ⟨0x0B00000000000000, [.real 1]⟩).inbox = [⟨0x0B00000000000000, [.real 1]⟩] ∧
    decodeWord 0x0B00000000000000 = .ok .step := ⟨rfl, rfl, by decide⟩

theorem witness_OperandMismatchFaults_count :
    (unit none []).operands.length ≠ (demanded .step).1 := by decide

theorem witness_OperandMismatchFaults_type :
    ∃ v ∈ (unit none [.complex 1 0]).operands,
      v.kind ≠ demandedKind (demanded .step).2 (unit none [.complex 1 0]).params.types :=
  ⟨.complex 1 0, by decide, by decide⟩

theorem witness_DemandedOperandsAccepted : (unit none [.real 1]).operands.length = (demanded .step).1 ∧
    (∀ v ∈ (unit none [.real 1]).operands, v.kind = demandedKind (demanded .step).2 (unit none []).params.types) ∧
    (nextState (exec .step (unit none [.real 1]))).isSome = true := by decide +kernel

theorem witness_UnconfiguredCommandFaults : (unit none [.real 1]).obj = none ∧
    operandsOk (unit none [.real 1]).params .step (unit none [.real 1]).operands = true := by decide +kernel

theorem witness_FaultLatch : lastResponse (step (waiting none ⟨0, []⟩)) = some ⟨.fault .reservedEncoding, .none⟩ := by
  decide +kernel

theorem witness_IdleUnitWaits : State.reset.fault = none ∧ State.reset.inbox = [] := ⟨rfl, rfl⟩

theorem witness_PowerOnReset : decodeWord 0x0B00000000000000 = .ok .step ∧
    operandsOk (unit none []).params .step [.real 1] = true := by decide +kernel

theorem witness_OneResponsePerCommand : (waiting (some objH5) ⟨0x0A00000000000000, []⟩).Shaped ∧
    (nextState (step (waiting (some objH5) ⟨0x0A00000000000000, []⟩))).isSome = true :=
  ⟨fun o h => by cases h; exact objH5_shape, by decide +kernel⟩

theorem witness_UnlatchedUnitSteps : (unit (some objH5) []).fault = none ∧
    ∀ o, (unit (some objH5) []).obj = some o → 1 ≤ o.kOut := ⟨rfl, fun o h => by cases h; decide⟩

theorem witness_CreateCompletes : operandsOk vectorParams (.create 2 1 2) (reals [1, 2]) = true ∧
    (2 - 1) % 1 = 0 ∧ (unit none (reals [1, 2])).params.num = .exact := by decide +kernel

/-- The clauses at their boundaries: `k = 1`; `len = 0`; `M = 0`; `len = 1`; `len = 5`, `M = 3`. -/
theorem witness_CreateRejects : operandsOk vectorParams (.create 1 1 2) (reals [1, 2]) = true ∧
    operandsOk vectorParams (.create 2 0 0) [] = true ∧ operandsOk vectorParams (.create 2 0 1) (reals [1]) = true ∧
    operandsOk vectorParams (.create 2 1 1) (reals [1]) = true ∧
    operandsOk vectorParams (.create 2 3 5) (reals [1, 2, 3, 4, 5]) = true ∧ (5 - 1) % 3 ≠ 0 := by decide +kernel

theorem witness_CreateRnyqCompletes : (unit none [.real 1]).params.num = .exact ∧
    (unit none [.real 1]).operands = [.real 1] ∧ (0 : Rat) < 1 ∧ (1 : Rat) ≤ 1 := by decide +kernel

/-- The clauses at their boundaries: any rolloff; 0 and 3/2; 1 with symbol delay 0. -/
theorem witness_CreateRnyqRejects : ∀ beta ∈ [(0 : Rat), 3 / 2, 1],
    operandsOk vectorParams (.createRnyq 2 1 0 0) [.real beta] = true ∧
      (beta ≤ 0 ∨ 1 < beta ∨ (0 < beta ∧ beta ≤ 1)) := by decide +kernel

theorem witness_objectCommands : (unit (some objH5) []).obj = some objH5 ∧ (unit (some objH5) []).operands = [] ∧
    (unit none []).obj = none ∧ (unit (some objH5) []).params.num = .exact := by decide +kernel

theorem witness_ResetForgetsPhase : ShapeOk vectorParams { objH5 with tau := 1, lfW := ⟨1, 2, 3⟩ } ∧
    ShapeOk vectorParams objH5 ∧
    (nextState (exec .reset (unit (some { objH5 with tau := 1, lfW := ⟨1, 2, 3⟩ }) []))).map State.fault = some none ∧
    (nextState (exec .reset (unit (some objH5) []))).map State.fault = some none :=
  ⟨by constructor <;> decide +kernel, objH5_shape, by decide +kernel, by decide +kernel⟩

/-- SET_RATE's clauses: a positive rate and, at the boundary, zero; SET_LOOP_BW's: both ends and outside each. -/
theorem witness_numberCommands : ∀ r ∈ [(1 / 3 : Rat), 0, 1, -1 / 100, 3 / 2],
    (unit (some objH5) [.real r]).operands = [.real r] ∧ (unit none [.real r]).obj = none := by decide +kernel

theorem witness_BankPushShifts : ∃ hist : List Value, hist ≠ [] := ⟨reals [0], by decide⟩

/-- Both kinds of bank: a history of `L = 2` samples, and of `LEN = 5`; the first index past `[0, M)`. -/
theorem witness_BankExecConvolves : vectorParams.num = .exact ∧ (∀ v ∈ objH5.h, v.kind = coefKind vectorParams.types) ∧
    (∀ v ∈ objH5.mfHist, v.kind = inputKind vectorParams.types) ∧ (0 : Int) ≤ 1 ∧ (1 : Int) < objH5.m ∧
    objH5.mfHist.length = histLength vectorParams objH5.h.length objH5.m ∧
    (reals [0, 0, 0, 0, 0]).length = histLength { vectorParams with bankSel := .external } objH5.h.length objH5.m ∧
    (objH5.m : Int) ≤ 2 := by decide +kernel

theorem witness_ReferenceDerivative : ∃ rs : List Rat, 2 ≤ rs.length := ⟨[1, 2], by decide⟩

theorem witness_LoopOutputBounded : ∀ bt ∈ [(0 : Rat), 1], 0 ≤ bt ∧ bt ≤ 1 ∧ ∀ x ∈ [(1 : Rat), -1], absNum x ≤ 1 := by
  decide +kernel

theorem witness_BinaryOverflowFaults : (2 : Rat) ^ 128 ≤ absNum (2 ^ 64 * 2 ^ 64) := by decide +kernel

theorem witness_StepWithoutOutput : operandsOk vectorParams .step (reals [2]) = true ∧
    ((2 : Nat) : Int) ≤ ({ objH5 with tau := 1, bf := 2, b := 2, dc := 1 } : Sync).b := by decide +kernel

theorem witness_StepOffTimeOneOutput : operandsOk vectorParams .step (reals [1]) = true ∧
    objH5.b < (objH5.m : Int) ∧ 1 ≤ vectorParams.outCap ∧ objH5.dc ≠ objH5.kOut ∧
    bankExec vectorParams objH5.h objH5.m (bankPush objH5.mfHist (.real 1)) objH5.b = .ok (.real 1) ∧
    divValue .exact (.real 1) objH5.k = .ok (.real (1 / 2)) ∧
    fitsB vectorParams (roundAway ((objH5.tau + objH5.del) * objH5.m)) = true ∧
    (objH5.m : Int) ≤ roundAway ((objH5.tau + objH5.del) * objH5.m) := by decide +kernel

/-- V-S7, STEP 3, for the first clause. -/
theorem witness_StepOnTimeUnlocked : operandsOk vectorParams .step (reals [3]) = true ∧
    bankExec vectorParams objH5.h 2 (bankPush (reals [2, 1]) (.real 3)) 0 = .ok (.real 9) ∧
    divValue .exact (.real 9) objH5.k = .ok (.real (9 / 2)) ∧
    bankExec vectorParams objH5.dh 2 (bankPush (reals [2, 1]) (.real 3)) 0 = .ok (.real (-1 / 50)) ∧
    ted .exact (.real 9) (.real (-1 / 50)) = .ok (-9 / 50) ∧
    lfExec .exact objH5.lfB objH5.lfA objH5.lfW (-9 / 50) = .ok (-33 / 1250, ⟨-9 / 50, 0, 0⟩) ∧
    (2467 / 1250 : Rat) = (objH5.k : Rat) / (objH5.kOut : Rat) + -33 / 1250 ∧
    fitsB vectorParams (roundAway ((0 + 2467 / 1250) * 2)) = true ∧
    (2 : Int) ≤ roundAway ((0 + 2467 / 1250) * 2) := by decide +kernel

/-- V-S12, third STEP 10, second iteration, for the second clause: `d = 1/5 - 11/50`. -/
theorem witness_StepOnTimeUnlocked_fault :
    bankExec vectorParams objH5.h 2 (bankPush (reals [10, 10]) (.real 10)) 0 = .ok (.real 40) ∧
    bankExec vectorParams objH5.dh 2 (bankPush (reals [10, 10]) (.real 10)) 0 = .ok (.real (-1 / 25)) ∧
    ted .exact (.real 40) (.real (-1 / 25)) = .ok (-1) ∧
    lfExec .exact ⟨11 / 50, 0, 0⟩ ⟨1, 0, 0⟩ ⟨0, 0, 0⟩ (-1) = .ok (-11 / 50, ⟨-1, 0, 0⟩) ∧
    ((2 : Nat) : Rat) / ((10 : Nat) : Rat) + -11 / 50 ≤ 0 := by decide +kernel

theorem witness_StepOnTimeLocked : operandsOk vectorParams .step (reals [1]) = true ∧
    (if vectorParams.lockSkipCountsOutput then 2 else 1) ≤ vectorParams.outCap ∧
    lockedH5.b < (lockedH5.m : Int) ∧ lockedH5.locked = true ∧ 1 ≤ lockedH5.kOut ∧
    ({ lockedH5 with dc := 1 } : Sync).dc = lockedH5.kOut ∧
    bankExec vectorParams lockedH5.h lockedH5.m (bankPush lockedH5.mfHist (.real 1)) lockedH5.b = .ok (.real 1) ∧
    (lockedH5.m : Int) ≤ roundAway ((lockedH5.tau + lockedH5.del) * lockedH5.m) := by decide +kernel

/-- The first STEP of V-S9 before its second iteration, at `B = 1`, with the given `DC`, `K_OUT` and `LOCKED`. -/
def secondIteration (dc kOut : Nat) (locked : Bool) : Run where
  obj := { objH5 with
    kOut := kOut, del := 1 / 2, tau := 1 / 2, bf := 1, b := 1, dc := dc, locked := locked
    mfHist := reals [1, 0], dmfHist := reals [1, 0] }
  outs := reals [1 / 2]

/-- The second iteration of a STEP executes the bank at the new `B`, for the three kinds of iteration. -/
theorem witness_iteration (dc kOut : Nat) (locked : Bool) : (secondIteration dc kOut locked).outs = reals [1 / 2] ∧
    (secondIteration dc kOut locked).obj.mfHist = reals [1, 0] ∧ (secondIteration dc kOut locked).obj.b = 1 ∧
    bankExec vectorParams objH5.h 2 (reals [1, 0]) 1 = .ok (.real 2) ∧
    divValue .exact (.real 2) objH5.k = .ok (.real 1) ∧
    fitsB vectorParams (roundAway ((1 / 2 + 1 / 2) * 2)) = true :=
  ⟨rfl, rfl, rfl, by decide +kernel⟩

/-- The hypotheses that are the unlocked update's alone. -/
theorem witness_iteration_unlocked : (secondIteration 1 1 false).obj.dc = (secondIteration 1 1 false).obj.kOut ∧
    bankExec vectorParams objH5.dh 2 (secondIteration 1 1 false).obj.dmfHist 1 = .ok (.real (1 / 125)) ∧
    ted .exact (.real 2) (.real (1 / 125)) = .ok (2 / 125) ∧
    lfExec .exact objH5.lfB objH5.lfA objH5.lfW (2 / 125) = .ok (22 / 9375, ⟨2 / 125, 0, 0⟩) ∧
    (0 : Rat) < 2 / 1 + 22 / 9375 ∧ fitsB vectorParams (roundAway ((1 / 2 + (2 / 1 + 22 / 9375)) * 2)) = true := by
  decide +kernel

/-- V-S9, STEP 1: two iterations, the outputs in their order. -/
theorem witness_StepRunsIterations :
    (runIterations vectorParams 2
      { obj := { objH5 with kOut := 4, del := 1 / 2, mfHist := reals [1, 0], dmfHist := reals [1, 0] }, outs := [] }).toOption.map
        (fun r => (r.outs, r.obj.b, r.obj.dc)) = some (reals [1 / 2, 1], 2, 2) := by decide +kernel

/-- V-S10, STEP 1: the second iteration faults. -/
theorem witness_StepRunsIterations_fault :
    (runIterations { vectorParams with outCap := 1 } 2
      { obj := { objH5 with kOut := 4, del := 1 / 2, mfHist := reals [1, 0], dmfHist := reals [1, 0] }, outs := [] }).toOption =
        none := by decide +kernel

theorem witness_FullSlotsFault : bankExec vectorParams objH5.h objH5.m objH5.mfHist objH5.b = .ok (.real 0) ∧
    ({ vectorParams with outCap := 1 } : Params).outCap ≤ [Value.real 0].length := by decide +kernel

/-- Both ends of the range of `B` at `B_WIDTH = 4`, from inside and outside: 7 and 8, -8 and -9. -/
theorem witness_TailAdvances : ∀ d ∈ [(7 : Rat), 8, -8, -9],
    roundAway ((objH5.tau + d) * ((1 : Nat) : Rat)) = d.num ∧
      ((-(2 ^ (4 - 1)) ≤ d.num ∧ d.num < 2 ^ (4 - 1)) ∨ (d.num < -(2 ^ (4 - 1)) ∨ 2 ^ (4 - 1) ≤ d.num)) := by
  decide +kernel

theorem witness_LockedExecuteCompletes : ObjectInv vectorParams lockedH5 ∧
    operandsOk vectorParams (.execute 2) (reals [1, 2]) = true ∧ lockedH5.locked = true ∧
    vectorParams.lockSkipCountsOutput = false ∧ 1 ≤ lockedH5.del * (vectorParams.outCap : Rat) ∧
    (lockedH5.m : Rat) * (1 + lockedH5.del) ≤ 2 ^ (vectorParams.bWidth - 1) :=
  ⟨lockedH5_inv, by decide +kernel⟩

/-- The object after `STEP 1` in V-S1. -/
def objS1 : Sync := { objH5 with
  tau := 1, bf := 2, b := 2, dc := 1, mfHist := reals [1, 0], dmfHist := reals [1, 0] }

/-- The object after `STEP 2` in V-S2. -/
def objS2 : Sync := { objH5 with
  tau := 0, bf := 0, b := 0, dc := 1, mfHist := reals [2, 1], dmfHist := reals [2, 1] }

theorem witness_ExecuteConcatenates :
    exec (.execute 1) { unit (some objH5) [] with operands := reals [1] } =
      .next (answered (unit (some objH5) []) (some objS1) .ok (.outputs 1 (reals [1 / 2]))) ∧
    exec (.execute 1) { unit (some objH5) [] with obj := some objS1, operands := reals [2] } =
      .next (answered (unit (some objH5) []) (some objS2) .ok (.outputs 0 [])) :=
  ⟨eq_next (by decide +kernel), eq_next (by decide +kernel)⟩

/-- V-S13: a batch whose first part faults, NumericRange. -/
theorem witness_ExecuteConcatenates_first :
    (nextState (exec (.execute 1) (unit (some { objH5 with del := 2 ^ 31 }) (reals [1])))).map State.fault =
      some (some .numericRange) ∧ operandsOk vectorParams (.execute 1) (reals [2]) = true := by decide +kernel

/-- The same after a first part with no output, which leaves `B = 0`. -/
theorem witness_ExecuteConcatenates_second :
    exec (.execute 1) { unit (some { objS1 with kOut := 2, del := 2 ^ 31 }) [] with operands := reals [2] } =
      .next (answered (unit (some { objS1 with kOut := 2, del := 2 ^ 31 }) []) (some { objS2 with kOut := 2, del := 2 ^ 31 })
        .ok (.outputs 0 [])) ∧
    (nextState (exec (.execute 1) (unit (some { objS2 with kOut := 2, del := 2 ^ 31 }) (reals [3])))).map State.fault =
      some (some .numericRange) :=
  ⟨eq_next (by decide +kernel), by decide +kernel⟩

theorem witness_FixedStepOutputCount_locked : ObjectInv vectorParams lockedH5 ∧ lockedH5.tau = 0 ∧
    lastResponse (exec (.execute 3) (unit (some lockedH5) (reals [1, 2, 3]))) =
      some ⟨.ok, .outputs 2 (reals [1 / 2, 9 / 2])⟩ :=
  ⟨lockedH5_inv, rfl, by decide +kernel⟩

/-- Setup H5 at `bt = 0`: the loop disabled, at the nominal step. -/
def openH5 : Sync := { objH5 with lfB := ⟨0, 0, 0⟩, lfA := ⟨1 / 2, -99 / 200, 0⟩ }

theorem witness_FixedStepOutputCount_open : ObjectInv vectorParams openH5 ∧ openH5.tau = 0 ∧ openH5.lfB.c0 = 0 ∧
    openH5.del = (openH5.k : Rat) / (openH5.kOut : Rat) ∧
    lastResponse (exec (.execute 3) (unit (some openH5) (reals [1, 2, 3]))) =
      some ⟨.ok, .outputs 2 (reals [1 / 2, 9 / 2])⟩ :=
  ⟨⟨by constructor <;> decide +kernel, by constructor <;> decide +kernel, by decide +kernel, 0, by decide +kernel⟩,
    rfl, rfl, by decide +kernel, by decide +kernel⟩

theorem witness_OutputCountBounded : exec .step (unit (some objH5) (reals [1])) =
    .next (answered (unit (some objH5) []) (some objS1) .ok (.outputs 1 (reals [1 / 2]))) :=
  eq_next (by decide +kernel)

theorem witness_LockFreezesLoop : lockedH5.locked = true ∧
    (nextObj (exec .step (unit (some lockedH5) (reals [1])))).isSome = true := by decide +kernel

theorem witness_DecimationCounterBounded : 1 ≤ objH5.kOut ∧ objH5.dc ≤ objH5.kOut ∧
    (nextObj (exec .step (unit (some objH5) (reals [1])))).isSome = true := by decide +kernel

theorem witness_BankIndexInRange : (unit (some objH5) (reals [1])).Inv ∧
    (nextState (exec .step (unit (some objH5) (reals [1])))).isSome = true := ⟨unit_inv _, by decide +kernel⟩

theorem witness_writers : (nextObj (exec .getTau (unit (some objH5) []))).isSome = true ∧
    (nextObj (exec .lock (unit (some objH5) []))).isSome = true := by decide +kernel

theorem witness_ModeTransitions : (unit (some objH5) []).mode = .configured ∧
    (nextState (exec .destroy (unit (some objH5) []))).map State.mode = some .unconfigured ∧
    (nextState (exec (.create 1 1 0) (unit (some objH5) []))).map State.mode = some .unconfigured ∧
    (unit none []).mode = .unconfigured ∧
    (nextState (exec (.create 2 2 5) (unit none (reals [1, 2, 3, 4, 5])))).map State.mode = some .configured := by
  decide +kernel

theorem witness_StepKeepsParameters : (nextState (step (waiting (some objH5) ⟨0x0A00000000000000, []⟩))).isSome = true := by
  decide +kernel

theorem witness_StepKeepsInvariant : (waiting (some objH5) ⟨0x0B00000000000000, reals [1]⟩).Inv ∧
    (nextState (step (waiting (some objH5) ⟨0x0B00000000000000, reals [1]⟩))).isSome = true :=
  ⟨⟨vectorParams_ok, rfl, fun _ o h => by cases h; exact objH5_inv⟩, by decide +kernel⟩

theorem witness_StepKeepsShape : (waiting (some objH5) ⟨0x0B00000000000000, reals [1]⟩).Shaped ∧
    (nextState (step (waiting (some objH5) ⟨0x0B00000000000000, reals [1]⟩))).isSome = true :=
  ⟨fun o h => by cases h; exact objH5_shape, by decide +kernel⟩

end Sys2Proof.Tests
end

section
/-! The outcome of a command: every next state of `exec` is that of one response, and `step` is an idle wait, or the
acceptance of one command and its response. The fault latch (10_state.md R22) is read off that. -/

namespace Sys2Proof.Machine

@[simp] theorem answered_fault (s : State) (obj : Option Sync) (status : Status) (p : Payload) :
    (answered s obj status p).fault = s.fault := rfl
@[simp] theorem answered_outbox (s : State) (obj : Option Sync) (status : Status) (p : Payload) :
    (answered s obj status p).outbox = s.outbox ++ [⟨status, p⟩] := rfl
@[simp] theorem latched_fault (s : State) (obj : Option Sync) (c : FaultCode) :
    (latched s obj c).fault = some c := rfl
@[simp] theorem latched_outbox (s : State) (obj : Option Sync) (c : FaultCode) :
    (latched s obj c).outbox = s.outbox ++ [⟨.fault c, .none⟩] := rfl

/-- `t` is `s` after the response that ended a command, with some object left: OK, an error, or a fault, which also sets
the latch (30_encoding.md R83, 60_exceptions.md R220, R222). -/
inductive Replied (s : State) : State → Prop where
  | ok (obj : Option Sync) (p : Payload) : Replied s (answered s obj .ok p)
  | error (obj : Option Sync) (e : ErrorCode) : Replied s (answered s obj (.error e) .none)
  | fault (obj : Option Sync) (c : FaultCode) : Replied s (latched s obj c)

theorem finish_replied {s t : State} {e : Ending} (h : finish s e = .next t) : Replied s t := by
  obtain ⟨o, p, -, rfl⟩ | ⟨-, rfl⟩ | ⟨c, o, -, rfl⟩ | ⟨c, o, -, rfl⟩ := finish_next h
  · exact .ok (some o) p
  · exact .ok none .none
  · exact .error (some o) c
  · exact .fault (some o) c

theorem onObject_replied {i : Instr} {s t : State} {body : Sync → Ending} (h : onObject i s body = .next t) :
    Replied s t := by
  obtain ⟨rfl, -⟩ | ⟨rfl, -, -⟩ | ⟨o, -, -, hfin⟩ := onObject_next h
  · exact .fault s.obj .malformedCommand
  · exact .fault none .notConfigured
  · exact finish_replied hfin

theorem inAnyMode_replied {i : Instr} {s t body : State} (hbody : Replied s body)
    (h : inAnyMode i s body = .next t) : Replied s t := by
  rw [inAnyMode_eq] at h
  cases h
  split
  · exact hbody
  · exact .fault s.obj .malformedCommand

theorem createBody_replied (k m len : Nat) (hs : List Value) (s : State) :
    Replied s (createBody k m len hs s) := by
  unfold createBody
  split
  · next e _ => exact .error none e
  · split
    · next o _ => exact .ok (some o) .none
    · next c _ => exact .fault none c

theorem rnyqBody_replied (k m ftype symDelay : Nat) (beta : Rat) (s : State) :
    Replied s (rnyqBody k m ftype symDelay beta s) := by
  unfold rnyqBody
  split
  · next e _ => exact .error none e
  · split
    · exact .error none .designRejected
    · exact createBody_replied ..

/-- Each command is one of the two front ends: CREATE and CREATE_RNYQ run in any mode, the others on the object
(60_exceptions.md R223). -/
theorem exec_frontEnd (i : Instr) (s : State) :
    (∃ body, Replied s body ∧ exec i s = inAnyMode i s body) ∨ ∃ body, exec i s = onObject i s body := by
  cases i with
  | create k m len => exact .inl ⟨_, createBody_replied .., rfl⟩
  | createRnyq k m ftype symDelay => exact .inl ⟨_, rnyqBody_replied .., rfl⟩
  | destroy | reset | lock | unlock | setRate | setOutputRate | setLoopBw | getTau | step | execute | print =>
    exact .inr ⟨_, rfl⟩

/-- Every command that ends does so with exactly one response. -/
theorem exec_replied {i : Instr} {s t : State} (h : exec i s = .next t) : Replied s t := by
  obtain ⟨body, hbody, he⟩ | ⟨body, he⟩ := exec_frontEnd i s
  · exact inAnyMode_replied hbody (he ▸ h)
  · exact onObject_replied (he ▸ h)

theorem step_stuck {s : State} {c : FaultCode} (h : s.fault = some c) : step s = .fault (.stuck c) := by
  simp only [step, fetch, h]

/-- Everything a step can do, if it answers a next state: the unit was not latched, and it waited or it accepted the
oldest command and replied. -/
theorem step_next {s t : State} (h : step s = .next t) :
    s.fault = none ∧
      ((s.inbox = [] ∧ t = s) ∨ ∃ c rest, s.inbox = c :: rest ∧ Replied (s.accept c rest) t) := by
  obtain ⟨c, -, hf⟩ | ⟨hfault, hin, hf⟩ | ⟨c, rest, -, hfault, hin, -, hf⟩ | ⟨c, rest, i, hfault, hin, -, hf⟩ :=
    fetch_cases s
  all_goals simp only [step, hf] at h
  · cases h
  · cases h
    exact ⟨hfault, .inl ⟨hin, rfl⟩⟩
  · cases h
    exact ⟨hfault, .inr ⟨c, rest, hin, .fault s.obj .reservedEncoding⟩⟩
  · exact ⟨hfault, .inr ⟨c, rest, hin, exec_replied h⟩⟩

/-- Only the reply that latches sends a fault response, and it latches the code it sends. -/
theorem Replied.fault_eq_of_status {s t : State} {r : Response} {c : FaultCode} (ht : Replied s t)
    (hout : t.outbox = s.outbox ++ [r]) (hr : r.status = .fault c) : t.fault = some c := by
  cases ht with
  | ok obj p =>
    obtain rfl : ⟨.ok, p⟩ = r := by simpa using hout
    cases hr
  | error obj e =>
    obtain rfl : ⟨.error e, .none⟩ = r := by simpa using hout
    cases hr
  | fault obj c' =>
    obtain rfl : ⟨.fault c', .none⟩ = r := by simpa using hout
    cases hr
    rfl

/-- A step that sends a fault response latches its code. -/
theorem step_fault_response_latches {s t : State} {r : Response} {c : FaultCode} (h : step s = .next t)
    (hout : t.outbox = s.outbox ++ [r]) (hr : r.status = .fault c) : t.fault = some c := by
  obtain ⟨-, ⟨-, rfl⟩ | ⟨cmd, rest, -, ht⟩⟩ := step_next h
  · simp at hout
  · exact ht.fault_eq_of_status (by simpa using hout) hr

/-- Settles O10: a fault response comes only from the reply that latches, and a step needs a unit not latched. -/
theorem faultLatch : Obligations.FaultLatch :=
  ⟨fun _ _ _ _ => step_fault_response_latches, fun _ _ => step_stuck, fun _ _ h => (step_next h).1,
    State.powerOn_fault, State.reset_fault⟩

end Sys2Proof.Machine
end

section
/-! The encoding: what `decodeWord` answers to a word that spells no command, what `operandsOk` demands of the operand
channel, and the faults that follow (30_encoding.md R82, R85, R86). -/

namespace Sys2Proof.Machine

section Fields
variable (w : Word)

/-- `OP` is all of the word above its 56 operand bits (30_encoding.md R81). -/
theorem fieldOp_eq_div : fieldOp w = w.toNat / 2 ^ 56 := by
  have hw := w.isLt
  simp only [fieldOp, bitField]
  omega

/-- `A` and `B` tile the bits between `C` and `OP` (30_encoding.md R81). -/
theorem fieldA_mul_add_fieldB : fieldA w * 2 ^ 16 + fieldB w = w.toNat % 2 ^ 56 / 2 ^ 24 := by
  simp only [fieldA, fieldB, bitField]
  omega

/-- The three operand fields tile the 56 bits below `OP` (30_encoding.md R81). -/
theorem fields_tile : (fieldA w * 2 ^ 16 + fieldB w) * 2 ^ 24 + fieldC w = w.toNat % 2 ^ 56 := by
  rw [fieldA_mul_add_fieldB]
  simp only [fieldC, bitField]
  omega

/-- `A` and `B` are both zero when no bit between `C` and `OP` is set (30_encoding.md R86). -/
theorem fieldA_add_fieldB_eq_zero_iff : fieldA w + fieldB w = 0 ↔ w.toNat % 2 ^ 56 / 2 ^ 24 = 0 := by
  rw [← fieldA_mul_add_fieldB]
  omega

/-- The three operand fields are all zero when no bit below `OP` is set (30_encoding.md R86). -/
theorem fields_sum_eq_zero_iff : fieldA w + fieldB w + fieldC w = 0 ↔ w.toNat % 2 ^ 56 = 0 := by
  rw [← fields_tile]
  omega

end Fields

theorem ifZero_of_ne_zero {op fields : Nat} {i : Instr} (h : fields ≠ 0) :
    ifZero op fields i = .error (.mustBeZero op) := if_neg h

/-- An `OP` outside 1 to 13 reaches the last arm of the decoder (30_encoding.md R85). -/
theorem decodeWord_of_reserved_op {w : Word} (h : fieldOp w = 0 ∨ 14 ≤ fieldOp w) :
    decodeWord w = .error (.illegalOpcode (fieldOp w)) := by
  unfold decodeWord
  split
  case h_14 => rfl
  all_goals omega

/-- The commands whose three operand fields must all be zero (30_encoding.md R84, R86). -/
theorem decodeWord_of_fields_ne_zero {w : Word} (hop : fieldOp w ∈ [3, 4, 5, 6, 7, 9, 10, 11, 13])
    (h : fieldA w + fieldB w + fieldC w ≠ 0) : decodeWord w = .error (.mustBeZero (fieldOp w)) := by
  simp only [List.mem_cons, List.not_mem_nil, or_false] at hop
  rcases hop with hop | hop | hop | hop | hop | hop | hop | hop | hop <;>
    simp only [decodeWord, hop, ifZero_of_ne_zero h]

/-- The commands that carry a count in `C`, whose fields `A` and `B` must be zero (30_encoding.md R84, R86). -/
theorem decodeWord_of_fieldA_add_fieldB_ne_zero {w : Word} (hop : fieldOp w ∈ [8, 12])
    (h : fieldA w + fieldB w ≠ 0) : decodeWord w = .error (.mustBeZero (fieldOp w)) := by
  simp only [List.mem_cons, List.not_mem_nil, or_false] at hop
  rcases hop with hop | hop <;> simp only [decodeWord, hop, ifZero_of_ne_zero h]

/-- A word that spells no command is accepted and raises the fault, whatever its operands (30_encoding.md R87). -/
theorem step_of_decode_error {s : State} {c : Command} {rest : List Command} {e : DecodeError}
    (hfault : s.fault = none) (hin : s.inbox = c :: rest) (hd : decodeWord c.word = .error e) :
    step s = .next (latched (s.accept c rest) s.obj .reservedEncoding) := by
  simp only [step, fetch, hfault, hin, hd, State.raiseFault_eq_latched, State.accept_obj]

theorem latched_accept (s : State) (c : Command) (rest : List Command) (obj : Option Sync) (f : FaultCode) :
    latched (s.accept c rest) obj f = latched { s with word := some c.word, inbox := rest } obj f := rfl

/-- Settles O4: a reserved `OP` reaches the decoder's last arm, and a word that does not decode raises the fault. -/
theorem reservedOpcodeFaults : Obligations.ReservedOpcodeFaults := by
  intro s w ops rest hfault hin hop
  rw [← fieldOp_eq_div] at hop
  rw [step_of_decode_error hfault hin (decodeWord_of_reserved_op hop), latched_accept]

/-- Settles O5: the bits the statement names are nonzero exactly when the decoder's must-be-zero fields are. -/
theorem nonzeroReservedFieldFaults : Obligations.NonzeroReservedFieldFaults := by
  intro s w ops rest hfault hin hword
  have hd : decodeWord w = .error (.mustBeZero (fieldOp w)) := by
    rw [← fieldOp_eq_div] at hword
    obtain ⟨hop, hne⟩ | ⟨hop, hne⟩ := hword
    · exact decodeWord_of_fields_ne_zero hop ((fields_sum_eq_zero_iff w).not.mpr hne)
    · exact decodeWord_of_fieldA_add_fieldB_ne_zero hop ((fieldA_add_fieldB_eq_zero_iff w).not.mpr hne)
  rw [step_of_decode_error hfault hin hd, latched_accept]

theorem conforms_iff {p : Params} {t : OperandType} {v : Value} :
    conforms p t v = true ↔
      v.kind = operandKind p t ∧ representable p.num v.re = true ∧ representable p.num v.im = true := by
  simp only [conforms, Bool.and_eq_true, decide_eq_true_eq, and_assoc]

theorem operandsOk_iff {p : Params} {i : Instr} {ops : List Value} :
    operandsOk p i ops = true ↔
      ops.length = operandCount i ∧ ∀ v ∈ ops, conforms p (operandType i) v = true := by
  simp only [operandsOk, Bool.and_eq_true, decide_eq_true_eq, List.all_eq_true]

/-- The table the statements write out from R82 is the one the model checks against. -/
theorem demanded_eq (i : Instr) : demanded i = (operandCount i, operandType i) := by
  cases i <;> rfl

theorem demandedKind_eq (p : Params) (t : OperandType) : demandedKind t p.types = operandKind p t := by
  cases t with
  | number => rfl
  | sample | coef => simp only [operandKind]; cases p.types <;> rfl

/-- Each command checks its operands before anything else, in either mode (30_encoding.md R87). -/
theorem exec_malformed {i : Instr} {s : State} (bad : operandsOk s.params i s.operands = false) :
    exec i s = .next (latched s s.obj .malformedCommand) := by
  obtain ⟨body, -, he⟩ | ⟨body, he⟩ := exec_frontEnd i s
  · rw [he, inAnyMode_eq, bad, if_neg Bool.false_ne_true]
  · rw [he, onObject_malformed bad]

/-- Settles O7: another count or kind than R82's table fails the operand check, which every command makes first. -/
theorem operandMismatchFaults : Obligations.OperandMismatchFaults := by
  intro i s hmismatch
  rw [demanded_eq, demandedKind_eq] at hmismatch
  refine exec_malformed (Bool.eq_false_iff.mpr fun hok => ?_)
  obtain ⟨hlength, hconforms⟩ := operandsOk_iff.mp hok
  obtain hne | ⟨v, hv, hne⟩ := hmismatch
  · exact hne hlength
  · exact hne (conforms_iff.mp (hconforms v hv)).1

end Sys2Proof.Machine
end

section
/-! The components (40_components.md): the push into a bank's history, the timing error detector and the loop filter,
each as the formula its rule gives. -/

namespace Sys2Proof.Machine

/-- The kept samples are the history's own first `L - 1`, so one is lost, and it is the last (40_components.md R102). -/
theorem bankPush_cons (y : Value) (ys : List Value) (x : Value) :
    bankPush (y :: ys) x = x :: (y :: ys).dropLast := by
  rw [bankPush, List.length_cons, List.take_succ_cons, List.dropLast_eq_take, List.length_cons, Nat.add_sub_cancel]

/-- Settles O29: a nonempty history has a last sample, and the push drops it. -/
theorem bankPushShifts : Obligations.BankPushShifts := by
  intro hist x hne
  obtain ⟨y, ys, rfl⟩ := List.exists_cons_of_ne_nil hne
  exact bankPush_cons y ys x

/-- The three branches of `clip` are the two bounds and the number between them (00_scope.md R10). -/
theorem clip_eq_max_min (v : Rat) : clip v = max (-1) (min 1 v) := by
  unfold clip
  split
  · next hlow => rw [min_eq_right (by linarith), max_eq_left hlow.le]
  · next hlow =>
    split
    · next hhigh => rw [min_eq_left hhigh.le, max_eq_right (by norm_num)]
    · next hhigh => rw [min_eq_right (not_lt.mp hhigh), max_eq_right (not_lt.mp hlow)]

/-- A real value has no imaginary part, so one formula serves both kinds (40_components.md R107). -/
theorem conjProductRe_exact (x y : Value) :
    conjProductRe .exact x y = .ok (x.re * y.re + x.im * y.im) := by
  cases x with
  | real a =>
    cases y with
    | real b => simp [conjProductRe, Value.re, Value.im]
    | complex c d => rfl
  | complex a b => rfl

/-- The detector under exact `NUM` (40_components.md R107). -/
theorem ted_exact (mf dmf : Value) : ted .exact mf dmf = .ok (clip (mf.re * dmf.re + mf.im * dmf.im)) := by
  rw [ted, conjProductRe_exact, except_ok_bind, except_pure]

/-- Settles O32: the detector never faults, and what it answers is clipped by `clip`'s `max` and `min`. -/
theorem detectorClips : Obligations.DetectorClips := by
  intro mf dmf
  rw [ted_exact, clip_eq_max_min]

/-- Settles O33: every operation of R109 is the exact one. -/
theorem loopCoefficients : Obligations.LoopCoefficients := by
  intro bt
  simp only [lfCoeffs, subNum_exact, mulNum_exact, norm_exact, except_ok_bind, except_pure]

/-- One loop filter step under exact `NUM`, with the newest memory element `w0` named (40_components.md R111). -/
theorem lfExec_exact (lfB lfA lfW : Taps) (x : Rat) :
    lfExec .exact lfB lfA lfW x =
      (let w0 := x - lfA.c1 / lfA.c0 * lfW.c0 - lfA.c2 / lfA.c0 * lfW.c1
       .ok ((lfB.c0 * w0 + lfB.c1 * lfW.c0 + lfB.c2 * lfW.c1) / lfA.c0, ⟨w0, lfW.c0, lfW.c1⟩)) := by
  simp only [lfExec, divNum_exact, mulNum_exact, subNum_exact, addNum_exact, except_ok_bind, except_pure]

/-- Settles O34: the step's output and newest memory element are the two formulas of R111. -/
theorem loopFilterStep : Obligations.LoopFilterStep := fun lfB lfA lfW x =>
  ⟨_, _, lfExec_exact lfB lfA lfW x, rfl, rfl⟩

end Sys2Proof.Machine
end

section
/-! The lifecycle (42_lifecycle.md): the two construction checks, branch by branch, and what a rejected construction,
DESTROY and RESET answer. -/

namespace Sys2Proof.Machine

/-- An error response without an object is the state `answered` describes (42_lifecycle.md R164). -/
theorem noObject_respondError_eq_answered (s : State) (e : ErrorCode) :
    s.noObject.respondError e = answered s none (.error e) .none := rfl

/-- A command without value operands accepts the empty channel (30_encoding.md R82). -/
theorem operandsOk_of_no_operands {i : Instr} {s : State} (hi : operandCount i = 0) (hops : s.operands = []) :
    operandsOk s.params i s.operands = true :=
  operandsOk_iff.mpr ⟨by rw [hops, hi, List.length_nil], by simp [hops]⟩

/-- The front end without an object, the operands as called for (60_exceptions.md R223). -/
theorem onObject_notConfigured {i : Instr} {s : State} {body : Sync → Ending} (h : s.obj = none)
    (ok : operandsOk s.params i s.operands = true) :
    onObject i s body = .next (latched s none .notConfigured) := by
  rw [onObject_none h, if_pos ok]

section CreateCheck
variable {k m len : Nat}

theorem createCheck_of_k_lt_two (hk : k < 2) : createCheck k m len = some .invalidSamplesPerSymbol := if_pos hk

theorem createCheck_of_len_eq_zero (hk : 2 ≤ k) (hlen : len = 0) :
    createCheck k m len = some .invalidFilterLength := by
  rw [createCheck, if_neg hk.not_gt, if_pos hlen]

theorem createCheck_of_m_eq_zero (hk : 2 ≤ k) (hlen : 1 ≤ len) (hm : m = 0) :
    createCheck k m len = some .invalidFilterBankSize := by
  rw [createCheck, if_neg hk.not_gt, if_neg (Nat.one_le_iff_ne_zero.mp hlen), if_pos hm]

theorem createCheck_of_not_tiled (hk : 2 ≤ k) (hm : 1 ≤ m) (hlen : len = 1 ∨ 2 ≤ len ∧ (len - 1) % m ≠ 0) :
    createCheck k m len = some .invalidFilterLength := by
  have hlen0 : len ≠ 0 := by omega
  rw [createCheck, if_neg hk.not_gt, if_neg hlen0, if_neg (Nat.one_le_iff_ne_zero.mp hm),
    if_pos (hlen.imp_right And.right)]

end CreateCheck

/-- A failing check of CREATE is its response, and no object is left, even if there was one (42_lifecycle.md R160,
R164). -/
theorem exec_create_of_check {s : State} {k m len : Nat} {e : ErrorCode}
    (ok : operandsOk s.params (.create k m len) s.operands = true) (h : createCheck k m len = some e) :
    exec (.create k m len) s = .next (answered s none (.error e) .none) := by
  have hexec : exec (.create k m len) s = inAnyMode (.create k m len) s (createBody k m len s.operands s) := rfl
  rw [hexec, inAnyMode_eq, if_pos ok, createBody, h]
  exact congrArg _ (noObject_respondError_eq_answered s e)

/-- Settles O16: each clause is one branch of `createCheck`. -/
theorem createRejects : Obligations.CreateRejects := fun _ _ _ _ ok =>
  ⟨fun hk => exec_create_of_check ok (createCheck_of_k_lt_two hk),
    fun hk hlen => exec_create_of_check ok (createCheck_of_len_eq_zero hk hlen),
    fun hk hlen hm => exec_create_of_check ok (createCheck_of_m_eq_zero hk hlen hm),
    fun hk hm hlen => exec_create_of_check ok (createCheck_of_not_tiled hk hm hlen)⟩

section RnyqCheck
variable {k m symDelay : Nat} {beta : Rat}

theorem rnyqCheck_of_k_lt_two (hk : k < 2) :
    rnyqCheck k m symDelay beta = some .invalidSamplesPerSymbol := if_pos hk

theorem rnyqCheck_of_m_eq_zero (hk : 2 ≤ k) (hm : m = 0) :
    rnyqCheck k m symDelay beta = some .invalidFilterBankSize := by
  rw [rnyqCheck, if_neg hk.not_gt, if_pos hm]

theorem rnyqCheck_of_rolloff (hk : 2 ≤ k) (hm : 1 ≤ m) (hbeta : beta ≤ 0 ∨ 1 < beta) :
    rnyqCheck k m symDelay beta = some .invalidRolloff := by
  have hout : ¬(0 < beta ∧ beta ≤ 1) := fun ⟨hpos, hle⟩ => hbeta.elim hpos.not_ge hle.not_gt
  rw [rnyqCheck, if_neg hk.not_gt, if_neg (Nat.one_le_iff_ne_zero.mp hm), if_pos hout]

theorem rnyqCheck_of_symDelay_eq_zero (hk : 2 ≤ k) (hm : 1 ≤ m) (hpos : 0 < beta) (hle : beta ≤ 1)
    (hd : symDelay = 0) : rnyqCheck k m symDelay beta = some .invalidSymbolDelay := by
  rw [rnyqCheck, if_neg hk.not_gt, if_neg (Nat.one_le_iff_ne_zero.mp hm), if_neg (not_not.mpr ⟨hpos, hle⟩),
    if_pos hd]

end RnyqCheck

/-- A failing check of CREATE_RNYQ, on the number the channel carries, is its response, and no object is left, even if
there was one (42_lifecycle.md R164, R166). -/
theorem exec_createRnyq_of_check {s : State} {k m ftype symDelay : Nat} {beta : Rat} {e : ErrorCode}
    (ok : operandsOk s.params (.createRnyq k m ftype symDelay) s.operands = true) (hops : s.operands = [.real beta])
    (h : rnyqCheck k m symDelay beta = some e) :
    exec (.createRnyq k m ftype symDelay) s = .next (answered s none (.error e) .none) := by
  have hexec : exec (.createRnyq k m ftype symDelay) s = inAnyMode (.createRnyq k m ftype symDelay) s
      (rnyqBody k m ftype symDelay (numberOperand s.operands) s) := rfl
  have hbeta : numberOperand s.operands = beta := congrArg numberOperand hops
  rw [hexec, inAnyMode_eq, if_pos ok, hbeta, rnyqBody, h]
  exact congrArg _ (noObject_respondError_eq_answered s e)

/-- Settles O18: each clause is one branch of `rnyqCheck`. -/
theorem createRnyqRejects : Obligations.CreateRnyqRejects := fun _ _ _ _ _ _ ok hops =>
  ⟨fun hk => exec_createRnyq_of_check ok hops (rnyqCheck_of_k_lt_two hk),
    fun hk hm => exec_createRnyq_of_check ok hops (rnyqCheck_of_m_eq_zero hk hm),
    fun hk hm hbeta => exec_createRnyq_of_check ok hops (rnyqCheck_of_rolloff hk hm hbeta),
    fun hk hm hpos hle hd => exec_createRnyq_of_check ok hops (rnyqCheck_of_symDelay_eq_zero hk hm hpos hle hd)⟩

theorem exec_destroy_eq (s : State) : exec .destroy s = onObject .destroy s (fun _ => .gone) := rfl

theorem exec_reset_eq (s : State) :
    exec .reset s = onObject .reset s (fun o => endOk (resetObject s.params o)) := rfl

/-- Settles O19: the front end without an object, and the ending `gone` with one. -/
theorem destroyCompletes : Obligations.DestroyCompletes := by
  refine ⟨by decide, fun s hops hobj => ?_, fun s o hobj hops => ?_⟩
  · rw [exec_destroy_eq, onObject_notConfigured hobj (operandsOk_of_no_operands rfl hops)]
  · rw [exec_destroy_eq, onObject_some hobj (operandsOk_of_no_operands rfl hops), finish_eq]

/-- A cleared history has a zero for each sample it held (40_components.md R105). -/
theorem bankReset_eq_map (p : Params) (hist : List Value) :
    bankReset p hist = hist.map (fun _ => Value.zero (inputKind p.types)) := List.map_const'.symm

/-- RESET's writes under exact `NUM`, none of which faults (42_lifecycle.md R175). -/
theorem resetObject_exact {p : Params} (hp : p.num = .exact) (o : Sync) :
    resetObject p o = .ok { o with
      tau := 0, tauDecim := 0, bf := 0, b := 0, dc := 0, lfW := ⟨0, 0, 0⟩, del := 1 / o.rate
      mfHist := o.mfHist.map (fun _ => Value.zero (inputKind p.types))
      dmfHist := o.dmfHist.map (fun _ => Value.zero (inputKind p.types)) } := by
  simp only [resetObject, hp, divNum_exact, atObj_ok, except_ok_bind, bankReset_eq_map, lfReset]

/-- Settles O20: the front end without an object, and RESET's writes with one. -/
theorem resetCompletes : Obligations.ResetCompletes := by
  refine ⟨by decide, fun s hops hobj => ?_, fun s o hp hobj hops => ?_⟩
  · rw [exec_reset_eq, onObject_notConfigured hobj (operandsOk_of_no_operands rfl hops)]
  · rw [exec_reset_eq, onObject_some hobj (operandsOk_of_no_operands rfl hops), resetObject_exact hp, endOk, finish_eq]

end Sys2Proof.Machine
end

section
/-! The control commands (43_control.md): LOCK, UNLOCK, GET_TAU and PRINT, which always complete on an object, and the
three rate and bandwidth writers, whose bodies are stated branch by branch. -/

namespace Sys2Proof.Machine

theorem exec_lock_eq (s : State) :
    exec .lock s = onObject .lock s (fun o => .ok { o with locked := true } .none) := rfl

theorem exec_unlock_eq (s : State) :
    exec .unlock s = onObject .unlock s (fun o => .ok { o with locked := false } .none) := rfl

theorem exec_getTau_eq (s : State) :
    exec .getTau s = onObject .getTau s (fun o => .ok o (.number o.tauDecim)) := rfl

theorem exec_print_eq (s : State) : exec .print s = onObject .print s (fun o => .ok o .none) := rfl

theorem exec_setRate_eq (s : State) :
    exec .setRate s =
      onObject .setRate s (fun o => endOk (setRateBody s.params (numberOperand s.operands) o)) := rfl

theorem exec_setOutputRate_eq (kOut : Nat) (s : State) :
    exec (.setOutputRate kOut) s = onObject (.setOutputRate kOut) s (fun o =>
      if kOut = 0 then .error .invalidOutputRate o else endOk (setOutputRateBody s.params kOut o)) := rfl

theorem exec_setLoopBw_eq (s : State) :
    exec .setLoopBw s =
      onObject .setLoopBw s (fun o => setLoopBwBody s.params (numberOperand s.operands) o) := rfl

/-- A command without value operands whose body cannot fail: NotConfigured without an object, and with one the answer
of its body (60_exceptions.md R223). -/
theorem exec_of_total_body {i : Instr} {f : Sync → Sync} {p : Sync → Payload}
    (hexec : ∀ s, exec i s = onObject i s (fun o => .ok (f o) (p o))) (hi : operandCount i = 0) :
    (∀ s : State, s.operands = [] → s.obj = none → exec i s = .next (latched s none .notConfigured)) ∧
    ∀ (s : State) (o : Sync), s.obj = some o → s.operands = [] →
      exec i s = .next (answered s (some (f o)) .ok (p o)) := by
  refine ⟨fun s hops hobj => ?_, fun s o hobj hops => ?_⟩
  · rw [hexec, onObject_notConfigured hobj (operandsOk_of_no_operands hi hops)]
  · rw [hexec, onObject_some hobj (operandsOk_of_no_operands hi hops), finish_eq]

/-- Settles O22: LOCK's body cannot fail. -/
theorem lockCompletes : Obligations.LockCompletes := ⟨by decide, exec_of_total_body exec_lock_eq rfl⟩

/-- Settles O23: UNLOCK's body cannot fail. -/
theorem unlockCompletes : Obligations.UnlockCompletes := ⟨by decide, exec_of_total_body exec_unlock_eq rfl⟩

/-- Settles O27: GET_TAU's body answers with a register and keeps the object. -/
theorem getTauCompletes : Obligations.GetTauCompletes := ⟨by decide, exec_of_total_body exec_getTau_eq rfl⟩

/-- Settles O28: PRINT's body keeps the object. -/
theorem printCompletes : Obligations.PrintCompletes := ⟨by decide, exec_of_total_body exec_print_eq rfl⟩

/-- Under exact `NUM` a command with one `R` operand accepts any real value (30_encoding.md R82). -/
theorem operandsOk_of_number {i : Instr} {s : State} {r : Rat} (hcount : operandCount i = 1)
    (htype : operandType i = .number) (hp : s.params.num = .exact) (hops : s.operands = [.real r]) :
    operandsOk s.params i s.operands = true := by
  refine operandsOk_iff.mpr ⟨by rw [hops, hcount, List.length_singleton], fun v hv => ?_⟩
  obtain rfl : v = .real r := by simpa [hops] using hv
  rw [htype, conforms_iff, hp]
  exact ⟨rfl, representable_exact _, representable_exact _⟩

@[simp] theorem numberOperand_real (r : Rat) : numberOperand [.real r] = r := rfl

section ControlBodies
variable {p : Params} (o : Sync)

/-- SET_RATE checks the rate before it writes (43_control.md R193). -/
theorem setRateBody_of_nonpos {r : Rat} (hr : r ≤ 0) : setRateBody p r o = .error (.nonPositiveStep, o) := if_pos hr

theorem setRateBody_exact {r : Rat} (hp : p.num = .exact) (hr : 0 < r) :
    setRateBody p r o = .ok { o with del := 1 / r } := by
  rw [setRateBody, if_neg hr.not_ge, hp, divNum_exact, atObj_ok, except_ok_bind]

/-- `DEL`, computed as `1/RATE` from the new `RATE`, is `K/K_OUT` under exact `NUM` (43_control.md R196). -/
theorem setOutputRateBody_exact (hp : p.num = .exact) (kOut : Nat) :
    setOutputRateBody p kOut o =
      .ok { o with kOut := kOut, rate := (kOut : Rat) / (o.k : Rat), del := (o.k : Rat) / (kOut : Rat) } := by
  simp only [setOutputRateBody, hp, divNum_exact, atObj_ok, except_ok_bind, one_div_div]

/-- The coefficients of 40_components.md R109, in lowest terms; `LF_W` is kept (R113). -/
theorem lfSetCoefficients_exact (hp : p.num = .exact) (bt : Rat) :
    lfSetCoefficients p bt o = .ok { o with
      lfB := ⟨11 / 50 * bt, 0, 0⟩, lfA := ⟨1 - 1 / 2 * (1 - bt), -(99 / 200) * (1 - bt), 0⟩ } := by
  have hbeta : (22 / 100 : Rat) = 11 / 50 := by norm_num
  have hb : (495 / 1000 : Rat) = 99 / 200 := by norm_num
  rw [lfSetCoefficients, hp, loopCoefficients bt, hbeta, hb, atObj_ok, except_ok_bind]

/-- SET_LOOP_BW checks the bandwidth before it writes (43_control.md R192, R199). -/
theorem setLoopBwBody_of_outside {bt : Rat} (hbt : bt < 0 ∨ 1 < bt) :
    setLoopBwBody p bt o = .error .invalidLoopBandwidth o := if_pos hbt

theorem setLoopBwBody_of_inside {bt : Rat} (h0 : 0 ≤ bt) (h1 : bt ≤ 1) :
    setLoopBwBody p bt o = endOk (lfSetCoefficients p bt o) :=
  if_neg fun hbt => hbt.elim h0.not_gt h1.not_gt

end ControlBodies

/-- Settles O24: the front end without an object, and the two branches of SET_RATE's body with one. -/
theorem setRateCompletes : Obligations.SetRateCompletes := by
  refine ⟨by decide, fun s r hp hops hobj => ?_, fun s o r hp hobj hops => ?_⟩
  · rw [exec_setRate_eq, onObject_notConfigured hobj (operandsOk_of_number rfl rfl hp hops)]
  · have hexec : exec .setRate s = finish s (endOk (setRateBody s.params r o)) := by
      rw [exec_setRate_eq, onObject_some hobj (operandsOk_of_number rfl rfl hp hops), hops, numberOperand_real]
    refine ⟨fun hpos => ?_, fun hnonpos => ?_⟩
    · rw [hexec, setRateBody_exact o hp hpos, endOk, finish_eq]
    · rw [hexec, setRateBody_of_nonpos o hnonpos, endOk, finish_eq]

/-- Settles O25: the front end without an object, the check of `k_out`, and the writes. -/
theorem setOutputRateCompletes : Obligations.SetOutputRateCompletes := by
  refine ⟨by decide, fun s kOut hops hobj => ?_, fun s o hobj hops => ?_, fun s o kOut hp hobj hops hk => ?_⟩
  · rw [exec_setOutputRate_eq, onObject_notConfigured hobj (operandsOk_of_no_operands rfl hops)]
  · rw [exec_setOutputRate_eq, onObject_some hobj (operandsOk_of_no_operands rfl hops), if_pos rfl, finish_eq]
  · rw [exec_setOutputRate_eq, onObject_some hobj (operandsOk_of_no_operands rfl hops),
      if_neg (Nat.one_le_iff_ne_zero.mp hk), setOutputRateBody_exact o hp, endOk, finish_eq]

/-- Settles O26: the front end without an object, and the two branches of SET_LOOP_BW's body with one. -/
theorem setLoopBwCompletes : Obligations.SetLoopBwCompletes := by
  refine ⟨by decide, fun s bt hp hops hobj => ?_, fun s o bt hp hobj hops => ?_⟩
  · rw [exec_setLoopBw_eq, onObject_notConfigured hobj (operandsOk_of_number rfl rfl hp hops)]
  · have hexec : exec .setLoopBw s = finish s (setLoopBwBody s.params bt o) := by
      rw [exec_setLoopBw_eq, onObject_some hobj (operandsOk_of_number rfl rfl hp hops), hops, numberOperand_real]
    refine ⟨fun h0 h1 => ?_, fun hout => ?_⟩
    · rw [hexec, setLoopBwBody_of_inside o h0 h1, lfSetCoefficients_exact o hp, endOk, finish_eq]
    · rw [hexec, setLoopBwBody_of_outside o hout, finish_eq]

end Sys2Proof.Machine
end

section
/-! The command outcomes without an object (60_exceptions.md R223). -/

namespace Sys2Proof.Machine

/-- Every command but the two constructing ones runs on the object, through the front end that checks the operands and
then `MODE` (30_encoding.md R87). -/
theorem exec_eq_onObject {i : Instr} (hcreate : ∀ k m len, i ≠ .create k m len)
    (hrnyq : ∀ k m ftype d, i ≠ .createRnyq k m ftype d) (s : State) :
    ∃ body, exec i s = onObject i s body := by
  cases i with
  | create k m len => exact absurd rfl (hcreate k m len)
  | createRnyq k m ftype d => exact absurd rfl (hrnyq k m ftype d)
  | destroy | reset | lock | unlock | setRate | setOutputRate | setLoopBw | getTau | step | execute | print =>
    exact ⟨_, rfl⟩

/-- Settles O9: the front end of a non-constructing command finds no object, and its body is not reached. -/
theorem unconfiguredCommandFaults : Obligations.UnconfiguredCommandFaults := by
  intro i s hobj hops hcreate hrnyq
  obtain ⟨body, hexec⟩ := exec_eq_onObject hcreate hrnyq s
  rw [hexec, onObject_notConfigured hobj hops]

end Sys2Proof.Machine
end

section
/-! The encoder and the decoder undo each other (30_encoding.md R81, R84, R89). -/

namespace Sys2Proof.Machine

section PackedFields
variable {op a b c : Nat}

theorem fieldA_packWord (ha : a < 2 ^ 16) (hb : b < 2 ^ 16) (hc : c < 2 ^ 24) : fieldA (packWord op a b c) = a := by
  simp only [fieldA, bitField, packWord, BitVec.toNat_ofNat]
  omega

theorem fieldB_packWord (hb : b < 2 ^ 16) (hc : c < 2 ^ 24) : fieldB (packWord op a b c) = b := by
  simp only [fieldB, bitField, packWord, BitVec.toNat_ofNat]
  omega

theorem fieldC_packWord (hc : c < 2 ^ 24) : fieldC (packWord op a b c) = c := by
  simp only [fieldC, bitField, packWord, BitVec.toNat_ofNat]
  omega

/-- The fields of a word that carries a count in `C` (30_encoding.md R84). -/
theorem fields_packWord_count (hop : op < 2 ^ 8) (hc : c < 2 ^ 24) :
    fieldOp (packWord op 0 0 c) = op ∧ fieldA (packWord op 0 0 c) = 0 ∧ fieldB (packWord op 0 0 c) = 0 ∧
      fieldC (packWord op 0 0 c) = c :=
  ⟨Laws.fieldOp_packWord hop (by decide) (by decide) hc, fieldA_packWord (by decide) (by decide) hc,
    fieldB_packWord (by decide) hc, fieldC_packWord hc⟩

end PackedFields

theorem fieldA_lt (w : Word) : fieldA w < 2 ^ 16 := Nat.mod_lt _ (by decide)
theorem fieldB_lt (w : Word) : fieldB w < 2 ^ 16 := Nat.mod_lt _ (by decide)
theorem fieldC_lt (w : Word) : fieldC w < 2 ^ 24 := Nat.mod_lt _ (by decide)

/-- A word is no more than its four fields (30_encoding.md R81, R89). -/
theorem packWord_fields (w : Word) : packWord (fieldOp w) (fieldA w) (fieldB w) (fieldC w) = w := by
  have hop := fieldOp_eq_div w
  have htile := fields_tile w
  refine BitVec.eq_of_toNat_eq ?_
  simp only [packWord, BitVec.toNat_ofNat]
  omega

theorem ifZero_eq_ok {op fields : Nat} {i j : Instr} : ifZero op fields i = .ok j ↔ fields = 0 ∧ i = j := by
  unfold ifZero
  split <;> simp [*]

theorem ifZero_zero (op : Nat) (i : Instr) : ifZero op (0 + 0) i = .ok i := if_pos rfl

/-- Settles O1: by the command; the opcode of the packed word selects the command's arm of the decoder, and the packed
fields are the command's operands. -/
theorem decodeOfEncode : Obligations.DecodeOfEncode := by
  intro i hwf
  cases i with
  | create k m len =>
    have hop : fieldOp (packWord 1 k m len) = 1 := Laws.EncodedOpcode.create k m len hwf
    simp only [Instr.wf, Bool.and_eq_true, decide_eq_true_eq] at hwf
    obtain ⟨⟨hk, hm⟩, hlen⟩ := hwf
    simp only [encode, decodeWord, hop, fieldA_packWord hk hm hlen, fieldB_packWord hm hlen, fieldC_packWord hlen]
  | createRnyq k m ftype symDelay =>
    have hop : fieldOp (packWord 2 k m (ftype * 2 ^ 16 + symDelay)) = 2 :=
      Laws.EncodedOpcode.createRnyq k m ftype symDelay hwf
    simp only [Instr.wf, Bool.and_eq_true, decide_eq_true_eq] at hwf
    obtain ⟨⟨⟨hk, hm⟩, hftype⟩, hdelay⟩ := hwf
    have hc : ftype * 2 ^ 16 + symDelay < 2 ^ 24 := by omega
    have hhigh : (ftype * 2 ^ 16 + symDelay) / 2 ^ 16 = ftype := by omega
    have hlow : (ftype * 2 ^ 16 + symDelay) % 2 ^ 16 = symDelay := by omega
    simp only [encode, decodeWord, hop, fieldA_packWord hk hm hc, fieldB_packWord hm hc, fieldC_packWord hc, hhigh,
      hlow]
  | setOutputRate kOut =>
    obtain ⟨hop, ha, hb, hc⟩ := fields_packWord_count (op := 8) (by decide) (of_decide_eq_true hwf)
    simp only [encode, decodeWord, hop, ha, hb, hc, ifZero_zero]
  | execute nx =>
    obtain ⟨hop, ha, hb, hc⟩ := fields_packWord_count (op := 12) (by decide) (of_decide_eq_true hwf)
    simp only [encode, decodeWord, hop, ha, hb, hc, ifZero_zero]
  | destroy | reset | lock | unlock | setRate | setLoopBw | getTau | step | print => decide

/-- A word whose must-be-zero fields hold is its opcode and `C` alone. -/
theorem packWord_of_fieldA_fieldB_zero {w : Word} {op : Nat} (hop : fieldOp w = op) (h : fieldA w + fieldB w = 0) :
    packWord op 0 0 (fieldC w) = w := by
  obtain ⟨ha, hb⟩ := Nat.add_eq_zero_iff.mp h
  simpa only [hop, ha, hb] using packWord_fields w

/-- A word whose must-be-zero fields hold is its opcode alone. -/
theorem packWord_of_fields_zero {w : Word} {op : Nat} (hop : fieldOp w = op)
    (h : fieldA w + fieldB w + fieldC w = 0) : packWord op 0 0 0 = w := by
  obtain ⟨hab, hc⟩ := Nat.add_eq_zero_iff.mp h
  simpa only [hc] using packWord_of_fieldA_fieldB_zero hop hab

/-- Settles O2: by the arm of the decoder; a word is the packing of its fields, and the fields the command does not hold
are zero. -/
theorem encodeOfDecode : Obligations.EncodeOfDecode := by
  intro w i h
  unfold decodeWord at h
  split at h
  case h_1 hop =>
    cases h
    refine ⟨by simpa only [encode, hop] using packWord_fields w, ?_⟩
    simp only [Instr.wf, fieldA_lt, fieldB_lt, fieldC_lt, decide_true, Bool.and_true]
  case h_2 hop =>
    cases h
    have hC := fieldC_lt w
    have hjoin : fieldC w / 2 ^ 16 * 2 ^ 16 + fieldC w % 2 ^ 16 = fieldC w := by omega
    have hhigh : fieldC w / 2 ^ 16 < 2 ^ 8 := by omega
    have hlow : fieldC w % 2 ^ 16 < 2 ^ 16 := by omega
    refine ⟨by simpa only [encode, hop, hjoin] using packWord_fields w, ?_⟩
    simp only [Instr.wf, fieldA_lt, fieldB_lt, hhigh, hlow, decide_true, Bool.and_true]
  case h_8 hop | h_12 hop =>
    obtain ⟨hzero, rfl⟩ := ifZero_eq_ok.mp h
    exact ⟨packWord_of_fieldA_fieldB_zero hop hzero, decide_eq_true (fieldC_lt w)⟩
  case h_14 => cases h
  all_goals
    obtain ⟨hzero, rfl⟩ := ifZero_eq_ok.mp h
    exact ⟨packWord_of_fields_zero ‹_› hzero, rfl⟩

/-- Settles O3: eight closed words, decoded by evaluation. -/
theorem workedWordsDecode : Obligations.WorkedWordsDecode := by
  unfold Obligations.WorkedWordsDecode
  decide

end Sys2Proof.Machine
end

section
/-! The front end: the step of a decoded command, of an idle unit and of a unit just powered on, and the invariant at
reset. -/

namespace Sys2Proof.Machine

/-- A step of an unlatched unit runs what the oldest word decodes to (30_encoding.md R87). -/
theorem step_of_decode_ok {s : State} {c : Command} {rest : List Command} {i : Instr}
    (hfault : s.fault = none) (hin : s.inbox = c :: rest) (hd : decodeWord c.word = .ok i) :
    step s = exec i (s.accept c rest) := by
  simp only [step, fetch, hfault, hin, hd]

/-- Settles O6: what the step accepts is the state the statement writes out. -/
theorem stepRunsDecodedCommand : Obligations.StepRunsDecodedCommand := fun _ _ _ _ hfault hin hd =>
  step_of_decode_ok hfault hin hd

/-- Settles O11: the front end finds no latch and no command. -/
theorem idleUnitWaits : Obligations.IdleUnitWaits := by
  intro s hfault hin
  simp only [step, fetch, hfault, hin]

/-- Settles O12: after power-on there is no object, and the front end of the next command finds none. -/
theorem powerOnReset : Obligations.PowerOnReset := by
  refine fun s => ⟨rfl, rfl, rfl, fun c i hd hops hcreate hrnyq => ?_⟩
  have haccept : step (s.powerOn.submit c) = exec i ((s.powerOn.submit c).accept c []) :=
    step_of_decode_ok rfl rfl hd
  rw [haccept, unconfiguredCommandFaults i _ rfl hops hcreate hrnyq]
  rfl

/-- `BT_INIT` is confined to [0,1], whatever the free rational behind it is (00_scope.md R7). -/
theorem btInit_mem : 0 ≤ Config.btInit ∧ Config.btInit ≤ 1 := by
  unfold Config.btInit
  split
  · exact ⟨le_rfl, zero_le_one⟩
  · next hlow =>
    split
    · exact ⟨zero_le_one, le_rfl⟩
    · next hhigh => exact ⟨not_lt.mp hlow, not_lt.mp hhigh⟩

/-- Settles O57: the parameters at reset are legal, and there is no object. -/
theorem resetSatisfiesInvariant : Obligations.ResetSatisfiesInvariant :=
  ⟨⟨⟨btInit_mem.1, btInit_mem.2, Nat.le_add_left ..⟩, rfl, fun _ _ h => by cases h⟩, fun _ h => by cases h⟩

end Sys2Proof.Machine
end

section
/-! What STEP and EXECUTE can leave, for either `NUM` and even where they fault (41_stepping.md R131 to R139): one
relation between the object before and the object after, kept by every write and transitive. -/

namespace Sys2Proof.Machine

/-- The object a sequence of writes leaves, whether it ends or faults (60_exceptions.md R227). -/
def leftObj {α : Type} (obj : α → Sync) : Writes α → Sync
  | .ok a => obj a
  | .error (_, o) => o

@[simp] theorem leftObj_ok {α : Type} (obj : α → Sync) (a : α) : leftObj obj (.ok a) = obj a := rfl
@[simp] theorem leftObj_error {α : Type} (obj : α → Sync) (c : FaultCode) (o : Sync) :
    leftObj obj (.error (c, o)) = o := rfl

/-- The object with every register that STEP may write cleared: what remains is what STEP keeps. -/
def Sync.setup (o : Sync) : Sync :=
  { o with
    del := 0, tau := 0, tauDecim := 0, bf := 0, b := 0, dc := 0, lfW := ⟨0, 0, 0⟩, mfHist := [], dmfHist := [] }

/-- Two objects of equal setup differ at most in the registers that STEP may write. -/
theorem Sync.eq_of_setup_eq {o o' : Sync} (h : o'.setup = o.setup) :
    o' = { o with
      del := o'.del, tau := o'.tau, tauDecim := o'.tauDecim, bf := o'.bf, b := o'.b, dc := o'.dc, lfW := o'.lfW
      mfHist := o'.mfHist, dmfHist := o'.dmfHist } := by
  cases o
  cases o'
  simp only [Sync.setup, Sync.mk.injEq] at h ⊢
  tauto

/-- How the object after some writes of STEP, with the samples `xs` pushed, relates to the one before: the setup is
kept; both banks saw the samples (40_components.md R106); `DC` keeps its width (10_state.md R35) and its bound (R44);
and while locked the loop is frozen (41_stepping.md R145). -/
structure Stepped (p : Params) (xs : List Value) (o o' : Sync) : Prop where
  setup : o'.setup = o.setup
  mfHist : o'.mfHist = xs.foldl bankPush o.mfHist
  dmfHist : o'.dmfHist = xs.foldl bankPush o.dmfHist
  dc_lt : o.dc < 2 ^ p.dcWidth → o'.dc < 2 ^ p.dcWidth
  dc_le : 1 ≤ o.kOut → o.dc ≤ o.kOut → o'.dc ≤ o.kOut
  frozen : o.locked = true → o'.del = o.del ∧ o'.tauDecim = o.tauDecim ∧ o'.lfW = o.lfW

namespace Stepped
variable {p : Params} {xs ys : List Value} {o o₁ o₂ : Sync}

section Kept
variable (h : Stepped p xs o o₁)
include h

theorem k_eq : o₁.k = o.k := (congrArg Sync.k h.setup :)
theorem m_eq : o₁.m = o.m := (congrArg Sync.m h.setup :)
theorem len_eq : o₁.len = o.len := (congrArg Sync.len h.setup :)
theorem h_eq : o₁.h = o.h := (congrArg Sync.h h.setup :)
theorem dh_eq : o₁.dh = o.dh := (congrArg Sync.dh h.setup :)
theorem kOut_eq : o₁.kOut = o.kOut := (congrArg Sync.kOut h.setup :)
theorem rate_eq : o₁.rate = o.rate := (congrArg Sync.rate h.setup :)
theorem locked_eq : o₁.locked = o.locked := (congrArg Sync.locked h.setup :)
theorem lfB_eq : o₁.lfB = o.lfB := (congrArg Sync.lfB h.setup :)
theorem lfA_eq : o₁.lfA = o.lfA := (congrArg Sync.lfA h.setup :)

end Kept

theorem refl (p : Params) (o : Sync) : Stepped p [] o o :=
  ⟨rfl, rfl, rfl, id, fun _ h => h, fun _ => ⟨rfl, rfl, rfl⟩⟩

theorem trans (h₁ : Stepped p xs o o₁) (h₂ : Stepped p ys o₁ o₂) : Stepped p (xs ++ ys) o o₂ where
  setup := h₂.setup.trans h₁.setup
  mfHist := by rw [h₂.mfHist, h₁.mfHist, List.foldl_append]
  dmfHist := by rw [h₂.dmfHist, h₁.dmfHist, List.foldl_append]
  dc_lt := fun h => h₂.dc_lt (h₁.dc_lt h)
  dc_le := fun hk h => by
    have hk₁ := h₁.kOut_eq
    exact hk₁ ▸ h₂.dc_le (hk₁ ▸ hk) (hk₁ ▸ h₁.dc_le hk h)
  frozen := fun hl => by
    obtain ⟨hdel, htau, hw⟩ := h₁.frozen hl
    obtain ⟨hdel', htau', hw'⟩ := h₂.frozen (h₁.locked_eq.trans hl)
    exact ⟨hdel'.trans hdel, htau'.trans htau, hw'.trans hw⟩

/-- A write of the phase. -/
theorem phase (p : Params) (o : Sync) (tau bf : Rat) (b : Int) :
    Stepped p [] o { o with tau := tau, bf := bf, b := b } :=
  ⟨rfl, rfl, rfl, id, fun _ h => h, fun _ => ⟨rfl, rfl, rfl⟩⟩

/-- `DC <- 0`, where an iteration is on-time (41_stepping.md R134, R135). -/
theorem dc_zero (p : Params) (o : Sync) : Stepped p [] o { o with dc := 0 } :=
  ⟨rfl, rfl, rfl, fun _ => Nat.two_pow_pos _, fun _ _ => Nat.zero_le _, fun _ => ⟨rfl, rfl, rfl⟩⟩

/-- The increment of `DC`, not at `K_OUT` (41_stepping.md R136). -/
theorem dc_succ (p : Params) (o : Sync) (hdc : 1 ≤ o.kOut → o.dc ≠ o.kOut) :
    Stepped p [] o { o with dc := (o.dc + 1) % 2 ^ p.dcWidth } := by
  refine ⟨rfl, rfl, rfl, fun _ => Nat.mod_lt _ (Nat.two_pow_pos _), fun hk hle => ?_, fun _ => ⟨rfl, rfl, rfl⟩⟩
  have hne := hdc hk
  have hmod := Nat.mod_le (o.dc + 1) (2 ^ p.dcWidth)
  change (o.dc + 1) % 2 ^ p.dcWidth ≤ o.kOut
  omega

/-- The writes of the unlocked update (41_stepping.md R135). -/
theorem loop (p : Params) (o : Sync) (hl : o.locked = false) (w : Taps) (del tauDecim : Rat) :
    Stepped p [] o { o with lfW := w, del := del, tauDecim := tauDecim } :=
  ⟨rfl, rfl, rfl, id, fun _ h => h, fun h => by rw [hl] at h; cases h⟩

/-- Both banks see the sample (41_stepping.md R131). -/
theorem push (p : Params) (o : Sync) (x : Value) : Stepped p [x] o (pushSample o x) :=
  ⟨rfl, rfl, rfl, id, fun _ h => h, fun _ => ⟨rfl, rfl, rfl⟩⟩

end Stepped

section
variable {p : Params} {xs : List Value} {o o₁ : Sync}

/-- A computation that may fault, then writes: what either leaves (60_exceptions.md R227). -/
theorem stepped_atObj_bind {α β : Type} {obj : β → Sync} {x : Except FaultCode α} {rest : α → Writes β}
    (here : Stepped p xs o o₁) (after : ∀ a, Stepped p xs o (leftObj obj (rest a))) :
    Stepped p xs o (leftObj obj (atObj o₁ x >>= rest)) := by
  cases x with
  | error c => exact here
  | ok a => exact after a

/-- The iteration tail writes `DC` and the phase. -/
theorem advance_stepped (o : Sync) (hdc : 1 ≤ o.kOut → o.dc ≠ o.kOut) :
    Stepped p [] o (leftObj id (advance p o)) := by
  have hsucc := Stepped.dc_succ p o hdc
  have hphase := fun tau bf b => hsucc.trans (Stepped.phase p _ tau bf b)
  refine stepped_atObj_bind hsucc fun tau => stepped_atObj_bind (hphase tau o.bf o.b) fun bf => ?_
  dsimp only
  split
  · exact hphase tau bf _
  · exact hphase tau bf o.b

/-- The unlocked update writes the loop memory, `DEL` and `TAU_DECIM`. -/
theorem loopUpdate_stepped (hl : o.locked = false) (mf : Value) :
    Stepped p [] o (leftObj id (loopUpdate p o mf)) := by
  have hsame := Stepped.refl p o
  have hloop := Stepped.loop p o hl
  refine stepped_atObj_bind hsame fun dmf => stepped_atObj_bind hsame fun e => stepped_atObj_bind hsame fun qw => ?_
  have hw := hloop qw.2 o.del o.tauDecim
  refine stepped_atObj_bind hw fun nominal => stepped_atObj_bind hw fun d => ?_
  dsimp only
  split
  · exact hw
  · exact hloop qw.2 d o.tau

/-- The wrap writes the phase. -/
theorem wrap_stepped (o : Sync) : Stepped p [] o (leftObj id (wrap p o)) :=
  stepped_atObj_bind (.refl p o) fun tau =>
    stepped_atObj_bind (.phase p o tau o.bf o.b) fun bf => .phase p o tau bf _

/-- The tail leaves what its writes leave. -/
theorem iterationTail_leftObj (p : Params) (outs : List Value) (o : Sync) (y : Value) :
    leftObj Run.obj (iterationTail p outs o y) = leftObj id (advance p o) := by
  unfold iterationTail
  cases advance p o <;> rfl

/-- One iteration, off-time, skipped or with its update. -/
theorem iteration_stepped (p : Params) (r : Run) : Stepped p [] r.obj (leftObj Run.obj (iteration p r)) := by
  unfold iteration
  cases hhead : iterationHead p r with
  | error e =>
    obtain ⟨c, o⟩ := e
    rw [iterationHead_error hhead]
    exact .refl p _
  | ok v =>
    simp only [except_ok_bind, iterationRest]
    split
    · next hdc =>
      split
      · exact .dc_zero p _
      · next hl =>
        have hzero := Stepped.dc_zero p r.obj
        have hupdate := loopUpdate_stepped (p := p) (o := { r.obj with dc := 0 }) (by simpa using hl) v.1
        cases hloop : loopUpdate p { r.obj with dc := 0 } v.1 with
        | error e =>
          rw [hloop] at hupdate
          exact hzero.trans hupdate
        | ok o₁ =>
          rw [hloop, leftObj_ok, id] at hupdate
          rw [except_ok_bind, iterationTail_leftObj]
          obtain ⟨_, _, _, _, _, _, -, -, -, -, -, -, rfl⟩ := loopUpdate_ok hloop
          exact (hzero.trans hupdate).trans (advance_stepped _ fun hk => (Nat.ne_of_lt hk))
    · next hdc =>
      rw [iterationTail_leftObj]
      exact advance_stepped r.obj fun _ => hdc

end

theorem innerLoop_stepped {p : Params} {fuel : Nat} {r : Run} {x : Writes Run}
    (h : innerLoop p fuel r = some x) : Stepped p [] r.obj (leftObj Run.obj x) := by
  induction fuel generalizing r with
  | zero => cases h
  | succ fuel ih =>
    rw [innerLoop_succ] at h
    split at h
    · have hiter := iteration_stepped p r
      cases hi : iteration p r with
      | error e =>
        rw [hi] at h hiter
        cases h
        exact hiter
      | ok r₁ =>
        rw [hi] at h hiter
        exact hiter.trans (ih h)
    · cases h
      exact .refl p _

/-- One STEP pushes its sample once, ends it or faults. -/
theorem stepBody_stepped {p : Params} {o : Sync} {v : Value} {x : Writes Run} (h : stepBody p o v = some x) :
    Stepped p [v] o (leftObj Run.obj x) := by
  unfold stepBody at h
  have hpush := Stepped.push p o v
  split at h
  · cases h
  · next e he =>
    cases h
    exact hpush.trans (innerLoop_stepped he)
  · next r hr =>
    have hloop := hpush.trans (innerLoop_stepped hr)
    have hwrap := wrap_stepped (p := p) r.obj
    split at h
    · next e he =>
      cases h
      rw [he] at hwrap
      exact hloop.trans hwrap
    · next o' ho =>
      cases h
      rw [ho] at hwrap
      exact hloop.trans hwrap

/-- A batch pushes its samples in their order, all of them where it ends, the first of them where it faults
(41_stepping.md R139). -/
theorem stepMany_stepped {p : Params} {vs : List Value} {r : Run} {x : Writes Run} (h : stepMany p r vs = some x) :
    ∃ pushed, pushed <+: vs ∧ Stepped p pushed r.obj (leftObj Run.obj x) ∧ (∀ r', x = .ok r' → pushed = vs) := by
  induction vs generalizing r with
  | nil =>
    cases h
    exact ⟨[], ⟨[], rfl⟩, .refl p _, fun _ _ => rfl⟩
  | cons v vs ih =>
    unfold stepMany at h
    split at h
    · cases h
    · next e he =>
      cases h
      exact ⟨[v], ⟨vs, rfl⟩, stepBody_stepped he, fun _ hr => by cases hr⟩
    · next r₁ hr₁ =>
      obtain ⟨pushed, ⟨rest, hrest⟩, hstepped, hall⟩ := ih h
      exact ⟨v :: pushed, ⟨rest, congrArg (v :: ·) hrest⟩, (stepBody_stepped hr₁).trans hstepped,
        fun r' hr' => congrArg (v :: ·) (hall r' hr')⟩

end Sys2Proof.Machine
end

section
/-! EXECUTE and STEP as commands: STEP is EXECUTE of one sample (41_stepping.md R139), and the registers they keep. -/

namespace Sys2Proof.Machine

theorem exec_execute_eq (nx : Nat) (s : State) :
    exec (.execute nx) s =
      onObject (.execute nx) s (fun o => endOutputs (stepMany s.params { obj := o, outs := [] } s.operands)) := rfl

theorem exec_step_eq (s : State) :
    exec .step s = onObject .step s (fun o => endOutputs (stepBody s.params o (firstOperand s.operands))) := rfl

theorem stepMany_singleton (p : Params) (o : Sync) (x : Value) :
    stepMany p { obj := o, outs := [] } [x] = stepBody p o x := by
  unfold stepMany
  split
  · next h => exact h.symm
  · next h => exact h.symm
  · next h => exact h.symm

theorem exists_singleton_of_operandsOk {p : Params} {i : Instr} {ops : List Value} (hi : operandCount i = 1)
    (h : operandsOk p i ops = true) : ∃ x, ops = [x] :=
  List.length_eq_one_iff.mp ((operandsOk_iff.mp h).1.trans hi)

/-- The two front ends make the same check, and the bodies agree on the one operand. -/
theorem exec_execute_one (s : State) : exec (.execute 1) s = exec .step s := by
  rw [exec_execute_eq, exec_step_eq]
  cases hok : operandsOk s.params .step s.operands with
  | false => rw [onObject_malformed hok, onObject_malformed (i := .execute 1) hok]
  | true =>
    obtain ⟨x, hx⟩ := exists_singleton_of_operandsOk rfl hok
    cases hobj : s.obj with
    | none => rw [onObject_none hobj, onObject_none hobj]; rfl
    | some o =>
      rw [onObject_some hobj hok, onObject_some (i := .execute 1) hobj hok, hx, stepMany_singleton, firstOperand,
        List.headD_cons]

/-- Settles O45: a batch of one is a STEP, and a batch of none is over at once. -/
theorem executeOneIsStep : Obligations.ExecuteOneIsStep := by
  refine ⟨exec_execute_one, fun s o hobj hops => ?_⟩
  rw [exec_execute_eq, onObject_some hobj (operandsOk_of_no_operands rfl hops), hops, stepMany, endOutputs, finish_eq]
  rfl

/-- STEP and EXECUTE are EXECUTE of some batch. -/
theorem exists_exec_execute {i : Instr} (hi : i = .step ∨ ∃ nx, i = .execute nx) (s : State) :
    ∃ nx, exec i s = exec (.execute nx) s := by
  obtain rfl | ⟨nx, rfl⟩ := hi
  · exact ⟨1, (exec_execute_one s).symm⟩
  · exact ⟨nx, rfl⟩

/-- The ending of a batch with an object leaves the object its writes leave. -/
theorem finish_endOutputs {s t : State} {x : Option (Writes Run)} (h : finish s (endOutputs x) = .next t) :
    ∃ w, x = some w ∧ t.obj = some (leftObj Run.obj w) := by
  match x with
  | none => cases h
  | some (.error (c, o)) => cases h; exact ⟨_, rfl, rfl⟩
  | some (.ok r) => cases h; exact ⟨_, rfl, rfl⟩

/-- EXECUTE on an object pushes a first part of its operands, or nothing where they are malformed. -/
theorem execute_stepped {nx : Nat} {s t : State} {o : Sync} (h : exec (.execute nx) s = .next t)
    (hobj : s.obj = some o) :
    ∃ o' pushed, t.obj = some o' ∧ Stepped s.params pushed o o' ∧
      ∀ v ∈ pushed, v.kind = inputKind s.params.types := by
  rw [exec_execute_eq] at h
  obtain ⟨rfl, -⟩ | ⟨-, hnone, -⟩ | ⟨o₁, hobj₁, hok, hfin⟩ := onObject_next h
  · exact ⟨o, [], hobj, .refl _ o, fun _ hv => by cases hv⟩
  · cases hobj.symm.trans hnone
  · cases hobj.symm.trans hobj₁
    obtain ⟨w, hw, ht⟩ := finish_endOutputs hfin
    obtain ⟨pushed, hpre, hstepped, -⟩ := stepMany_stepped hw
    refine ⟨_, pushed, ht, hstepped, fun v hv => ?_⟩
    exact (conforms_iff.mp ((operandsOk_iff.mp hok).2 v (hpre.subset hv))).1

theorem stepping_stepped {i : Instr} (hi : i = .step ∨ ∃ nx, i = .execute nx) {s t : State} {o o' : Sync}
    (h : exec i s = .next t) (hobj : s.obj = some o) (hobj' : t.obj = some o') :
    ∃ pushed, Stepped s.params pushed o o' ∧ ∀ v ∈ pushed, v.kind = inputKind s.params.types := by
  obtain ⟨nx, hexec⟩ := exists_exec_execute hi s
  obtain ⟨o₁, pushed, hobj₁, hstepped, hkind⟩ := execute_stepped (hexec ▸ h) hobj
  cases hobj'.symm.trans hobj₁
  exact ⟨pushed, hstepped, hkind⟩

/-- Settles O49: while locked no write of a STEP touches the loop. -/
theorem lockFreezesLoop : Obligations.LockFreezesLoop := by
  intro s t o o' i hi hobj hlocked h hobj'
  obtain ⟨_, hstepped, -⟩ := stepping_stepped hi h hobj hobj'
  exact hstepped.frozen hlocked

/-- Settles O50: `DC` is cleared at `K_OUT` and grows by one elsewhere. -/
theorem decimationCounterBounded : Obligations.DecimationCounterBounded := by
  intro s t o o' i hi hobj hk hdc h hobj'
  obtain ⟨_, hstepped, -⟩ := stepping_stepped hi h hobj hobj'
  exact hstepped.kOut_eq ▸ hstepped.dc_le hk hdc

end Sys2Proof.Machine
end

section
/-! What each command can leave of the object, for either `NUM` and even where it faults. -/

namespace Sys2Proof.Machine

/-- The object an ending leaves. -/
def Ending.obj : Ending → Option Sync
  | .ok o _ => some o
  | .gone => none
  | .error _ o => some o
  | .fault _ o => some o
  | .hang => none

theorem finish_obj {s t : State} {e : Ending} (h : finish s e = .next t) : t.obj = e.obj := by
  obtain ⟨o, p, rfl, rfl⟩ | ⟨rfl, rfl⟩ | ⟨c, o, rfl, rfl⟩ | ⟨c, o, rfl, rfl⟩ := finish_next h <;> rfl

theorem leftObj_of_endOk_obj {x : Writes Sync} {o : Sync} (h : (endOk x).obj = some o) : leftObj id x = o := by
  cases x <;> exact Option.some.inj h

/-- A command on an object leaves it as it is, or leaves what its body does. -/
theorem onObject_obj {i : Instr} {s t : State} {body : Sync → Ending} {o o' : Sync} (h : onObject i s body = .next t)
    (hobj : s.obj = some o) (hobj' : t.obj = some o') : o' = o ∨ (body o).obj = some o' := by
  obtain ⟨rfl, -⟩ | ⟨rfl, -⟩ | ⟨o₁, hobj₁, -, hfin⟩ := onObject_next h
  · exact .inl (Option.some.inj (hobj'.symm.trans hobj))
  · cases hobj'
  · cases hobj.symm.trans hobj₁
    exact .inr ((finish_obj hfin).symm.trans hobj')

/-- A command on an object makes none. -/
theorem onObject_obj_none {i : Instr} {s t : State} {body : Sync → Ending} (h : onObject i s body = .next t)
    (hobj : s.obj = none) : t.obj = none := by
  rw [onObject_none hobj] at h
  cases h
  rfl

/-- What a command that does not construct can leave of the object (42_lifecycle.md R175; 43_control.md R190 to R205;
41_stepping.md R131 to R139). Every command can leave it as it is: where its operands are malformed, say. -/
inductive CommandLeaves (p : Params) (o : Sync) : Instr → Sync → Prop
  | same (i : Instr) : CommandLeaves p o i o
  | reset (del : Rat) : CommandLeaves p o .reset { o with
      tau := 0, tauDecim := 0, bf := 0, b := 0, dc := 0, lfW := ⟨0, 0, 0⟩, del := del
      mfHist := bankReset p o.mfHist, dmfHist := bankReset p o.dmfHist }
  | lock : CommandLeaves p o .lock { o with locked := true }
  | unlock : CommandLeaves p o .unlock { o with locked := false }
  | setRate (del : Rat) : CommandLeaves p o .setRate { o with del := del }
  | setOutputRate {kOut : Nat} (hk : kOut ≠ 0) (rate del : Rat) :
      CommandLeaves p o (.setOutputRate kOut) { o with kOut := kOut, rate := rate, del := del }
  | setLoopBw (lfB lfA : Taps) : CommandLeaves p o .setLoopBw { o with lfB := lfB, lfA := lfA }
  | stepping {i : Instr} {pushed : List Value} {o' : Sync} (hi : i = .step ∨ ∃ nx, i = .execute nx)
      (hkind : ∀ v ∈ pushed, v.kind = inputKind p.types) (h : Stepped p pushed o o') : CommandLeaves p o i o'

section Bodies
variable (p : Params) (o : Sync)

theorem resetObject_leaves : CommandLeaves p o .reset (leftObj id (resetObject p o)) := by
  unfold resetObject
  dsimp only
  cases divNum p.num 1 o.rate with
  | error c => exact .reset o.del
  | ok del => exact .reset del

theorem setRateBody_leaves (r : Rat) : CommandLeaves p o .setRate (leftObj id (setRateBody p r o)) := by
  unfold setRateBody
  split
  · exact .same _
  · cases divNum p.num 1 r with
    | error c => exact .same _
    | ok del => exact .setRate del

theorem setOutputRateBody_leaves {kOut : Nat} (hk : kOut ≠ 0) :
    CommandLeaves p o (.setOutputRate kOut) (leftObj id (setOutputRateBody p kOut o)) := by
  unfold setOutputRateBody
  dsimp only
  cases divNum p.num kOut o.k with
  | error c => exact .setOutputRate hk _ _
  | ok rate =>
    rw [atObj_ok, except_ok_bind]
    cases divNum p.num 1 rate with
    | error c => exact .setOutputRate hk _ _
    | ok del => exact .setOutputRate hk rate del

theorem setLoopBwBody_leaves (bt : Rat) {o' : Sync} (h : (setLoopBwBody p bt o).obj = some o') :
    CommandLeaves p o .setLoopBw o' := by
  unfold setLoopBwBody at h
  split at h
  · cases h
    exact .same _
  · rw [← leftObj_of_endOk_obj h]
    unfold lfSetCoefficients
    cases lfCoeffs p.num bt with
    | error c => exact .same _
    | ok coeffs => exact .setLoopBw coeffs.1 coeffs.2

end Bodies

theorem onObject_leaves {i : Instr} {s t : State} {body : Sync → Ending} {o o' : Sync} (h : onObject i s body = .next t)
    (hobj : s.obj = some o) (hobj' : t.obj = some o')
    (hbody : (body o).obj = some o' → CommandLeaves s.params o i o') : CommandLeaves s.params o i o' := by
  obtain rfl | hb := onObject_obj h hobj hobj'
  · exact .same i
  · exact hbody hb

theorem stepping_leaves {i : Instr} (hi : i = .step ∨ ∃ nx, i = .execute nx) {s t : State} {o o' : Sync}
    (h : exec i s = .next t) (hobj : s.obj = some o) (hobj' : t.obj = some o') : CommandLeaves s.params o i o' := by
  obtain ⟨_, hstepped, hkind⟩ := stepping_stepped hi h hobj hobj'
  exact .stepping hi hkind hstepped

/-- Everything a command that does not construct can leave of the object it found. -/
theorem exec_leaves {i : Instr} {s t : State} {o o' : Sync} (h : exec i s = .next t) (hobj : s.obj = some o)
    (hobj' : t.obj = some o') (hcreate : ∀ k m len, i ≠ .create k m len)
    (hrnyq : ∀ k m ftype d, i ≠ .createRnyq k m ftype d) : CommandLeaves s.params o i o' := by
  cases i with
  | create k m len => exact absurd rfl (hcreate k m len)
  | createRnyq k m ftype d => exact absurd rfl (hrnyq k m ftype d)
  | step => exact stepping_leaves (.inl rfl) h hobj hobj'
  | execute nx => exact stepping_leaves (.inr ⟨nx, rfl⟩) h hobj hobj'
  | destroy =>
    refine onObject_leaves h hobj hobj' fun hb => ?_
    cases hb
  | lock =>
    refine onObject_leaves h hobj hobj' fun hb => ?_
    cases hb
    exact .lock
  | unlock =>
    refine onObject_leaves h hobj hobj' fun hb => ?_
    cases hb
    exact .unlock
  | getTau | print =>
    refine onObject_leaves h hobj hobj' fun hb => ?_
    cases hb
    exact .same _
  | reset => exact onObject_leaves h hobj hobj' fun hb => leftObj_of_endOk_obj hb ▸ resetObject_leaves _ _
  | setRate => exact onObject_leaves h hobj hobj' fun hb => leftObj_of_endOk_obj hb ▸ setRateBody_leaves _ _ _
  | setLoopBw => exact onObject_leaves h hobj hobj' (setLoopBwBody_leaves _ _ _)
  | setOutputRate kOut =>
    refine onObject_leaves h hobj hobj' fun hb => ?_
    split at hb
    · cases hb
      exact .same _
    · next hk => exact leftObj_of_endOk_obj hb ▸ setOutputRateBody_leaves _ _ hk

/-- Settles O52: nothing a command leaves differs in the configuration. -/
theorem configurationWriters : Obligations.ConfigurationWriters := by
  intro i s t o o' h hobj hobj' hcreate hrnyq
  cases exec_leaves h hobj hobj' hcreate hrnyq with
  | stepping hi hkind hs => exact ⟨hs.k_eq, hs.m_eq, hs.len_eq, hs.h_eq, hs.dh_eq⟩
  | same | reset | lock | unlock | setRate | setOutputRate | setLoopBw => exact ⟨rfl, rfl, rfl, rfl, rfl⟩

/-- Settles O53: by what each command leaves; the command excepted is the one that writes. -/
theorem controlWriters : Obligations.ControlWriters := by
  intro i s t o o' h hobj hobj' hcreate hrnyq
  cases exec_leaves h hobj hobj' hcreate hrnyq with
  | stepping hi hkind hs =>
    exact ⟨fun _ => ⟨hs.kOut_eq, hs.rate_eq⟩, fun _ => ⟨hs.lfB_eq, hs.lfA_eq⟩, fun _ _ => hs.locked_eq⟩
  | same | reset | setRate => exact ⟨fun _ => ⟨rfl, rfl⟩, fun _ => ⟨rfl, rfl⟩, fun _ _ => rfl⟩
  | lock => exact ⟨fun _ => ⟨rfl, rfl⟩, fun _ => ⟨rfl, rfl⟩, fun hne => absurd rfl hne⟩
  | unlock => exact ⟨fun _ => ⟨rfl, rfl⟩, fun _ => ⟨rfl, rfl⟩, fun _ hne => absurd rfl hne⟩
  | setOutputRate hk => exact ⟨fun hne => absurd rfl (hne _), fun _ => ⟨rfl, rfl⟩, fun _ _ => rfl⟩
  | setLoopBw => exact ⟨fun _ => ⟨rfl, rfl⟩, fun hne => absurd rfl hne, fun _ _ => rfl⟩

/-- Settles O54: by what each command leaves; the command excepted is the one that writes. -/
theorem phaseWriters : Obligations.PhaseWriters := by
  intro i s t o o' h hobj hobj' hcreate hrnyq hstep hexecute hreset
  cases exec_leaves h hobj hobj' hcreate hrnyq with
  | stepping hi => exact absurd hi (not_or.mpr ⟨hstep, not_exists.mpr hexecute⟩)
  | reset => exact absurd rfl hreset
  | same | lock | unlock | setLoopBw => exact ⟨⟨rfl, rfl, rfl, rfl, rfl, rfl, rfl, rfl⟩, fun _ _ => rfl⟩
  | setRate => exact ⟨⟨rfl, rfl, rfl, rfl, rfl, rfl, rfl, rfl⟩, fun hne => absurd rfl hne⟩
  | setOutputRate hk => exact ⟨⟨rfl, rfl, rfl, rfl, rfl, rfl, rfl, rfl⟩, fun _ hne => absurd rfl (hne _)⟩

/-- Whatever the reply, the parameters stay. -/
theorem Replied.params_eq {s t : State} (h : Replied s t) : t.params = s.params := by
  cases h <;> rfl

/-- Settles O56: a step waits, or accepts a command and replies. -/
theorem stepKeepsParameters : Obligations.StepKeepsParameters := by
  intro s t h
  obtain ⟨-, ⟨-, rfl⟩ | ⟨c, rest, -, ht⟩⟩ := step_next h
  · rfl
  · exact ht.params_eq

/-- Everything a step can do, if it answers a next state, with the command it ran. -/
theorem step_next_exec {s t : State} (h : step s = .next t) :
    s.fault = none ∧
      ((s.inbox = [] ∧ t = s) ∨ ∃ c rest, s.inbox = c :: rest ∧
        ((∃ e, decodeWord c.word = .error e ∧ t = latched (s.accept c rest) s.obj .reservedEncoding) ∨
          ∃ i, decodeWord c.word = .ok i ∧ exec i (s.accept c rest) = .next t)) := by
  obtain ⟨hfault, ⟨hin, rfl⟩ | ⟨c, rest, hin, -⟩⟩ := step_next h
  · exact ⟨hfault, .inl ⟨hin, rfl⟩⟩
  · refine ⟨hfault, .inr ⟨c, rest, hin, ?_⟩⟩
    cases hd : decodeWord c.word with
    | error e =>
      rw [step_of_decode_error hfault hin hd] at h
      cases h
      exact .inl ⟨e, rfl, rfl⟩
    | ok i => exact .inr ⟨i, rfl, step_of_decode_ok hfault hin hd ▸ h⟩

/-- RESET, ended without a fault, for either `NUM`. -/
theorem exec_reset_ok {s t : State} {o : Sync} (h : exec .reset s = .next t) (hobj : s.obj = some o)
    (hfault : t.fault = none) : ∃ o', resetObject s.params o = .ok o' ∧ t.obj = some o' := by
  rw [exec_reset_eq] at h
  obtain ⟨rfl, -⟩ | ⟨rfl, -⟩ | ⟨o₁, hobj₁, -, hfin⟩ := onObject_next h
  · cases hfault
  · cases hfault
  · cases hobj.symm.trans hobj₁
    cases hr : resetObject s.params o with
    | ok o' =>
      rw [hr] at hfin
      exact ⟨o', rfl, finish_obj hfin⟩
    | error e =>
      rw [hr] at hfin
      cases hfin
      cases hfault

/-- RESET's result is a function of the configuration, `LOCKED` and the lengths of the histories. -/
theorem resetObject_congr {p : Params} {o₁ o₂ : Sync} (hk : o₁.k = o₂.k) (hm : o₁.m = o₂.m) (hlen : o₁.len = o₂.len)
    (hh : o₁.h = o₂.h) (hdh : o₁.dh = o₂.dh) (hkOut : o₁.kOut = o₂.kOut) (hrate : o₁.rate = o₂.rate)
    (hlfB : o₁.lfB = o₂.lfB) (hlfA : o₁.lfA = o₂.lfA) (hlocked : o₁.locked = o₂.locked)
    (hmf : o₁.mfHist.length = o₂.mfHist.length) (hdmf : o₁.dmfHist.length = o₂.dmfHist.length)
    {r₁ r₂ : Sync} (h₁ : resetObject p o₁ = .ok r₁) (h₂ : resetObject p o₂ = .ok r₂) : r₁ = r₂ := by
  unfold resetObject at h₁ h₂
  simp only [bankReset, hrate, hmf, hdmf] at h₁ h₂
  cases hd : divNum p.num 1 o₂.rate with
  | error c => simp [hd] at h₁
  | ok del =>
    simp only [hd, atObj_ok, except_ok_bind, Except.ok.injEq] at h₁ h₂
    rw [← h₁, ← h₂]
    congr

/-- Settles O21: RESET clears all that may differ. -/
theorem resetForgetsPhase : Obligations.ResetForgetsPhase := by
  intro s₁ s₂ t₁ t₂ o₁ o₂ hp hobj₁ hobj₂ _ _ hk hm hlen hh hdh hkOut hrate hlfB hlfA hlocked hshape₁ hshape₂
    h₁ h₂ hfault₁ hfault₂
  obtain ⟨r₁, hr₁, ht₁⟩ := exec_reset_ok h₁ hobj₁ hfault₁
  obtain ⟨r₂, hr₂, ht₂⟩ := exec_reset_ok h₂ hobj₂ hfault₂
  have hmf : o₁.mfHist.length = o₂.mfHist.length := by
    rw [hshape₁.hist_length, hshape₂.hist_length, hp, hlen, hm]
  have hdmf : o₁.dmfHist.length = o₂.dmfHist.length := by rw [hshape₁.hist_same, hshape₂.hist_same, hmf]
  rw [ht₁, ht₂, resetObject_congr hk hm hlen hh hdh hkOut hrate hlfB hlfA hlocked hmf hdmf hr₁ (hp ▸ hr₂)]

end Sys2Proof.Machine
end

section
/-! `MODE`: which commands make an object and which take it away (10_state.md R20). -/

namespace Sys2Proof.Machine

/-- How a construction ends: OK with an object, or without one (42_lifecycle.md R160, R164). -/
inductive Constructed (s : State) : State → Prop
  | ok (o : Sync) : Constructed s (answered s (some o) .ok .none)
  | error (e : ErrorCode) : Constructed s (answered s none (.error e) .none)
  | fault (c : FaultCode) : Constructed s (latched s none c)

theorem createBody_constructed (k m len : Nat) (h : List Value) (s : State) :
    Constructed s (createBody k m len h s) := by
  unfold createBody
  split
  · exact .error _
  · split
    · exact .ok _
    · exact .fault _

theorem rnyqBody_constructed (k m ftype symDelay : Nat) (beta : Rat) (s : State) :
    Constructed s (rnyqBody k m ftype symDelay beta s) := by
  unfold rnyqBody
  split
  · exact .error _
  · split
    · exact .error _
    · exact createBody_constructed ..

/-- `CREATE` or `CREATE_RNYQ`. -/
def Constructs (i : Instr) : Prop :=
  (∃ k m len, i = .create k m len) ∨ ∃ k m ftype d, i = .createRnyq k m ftype d

/-- A construction is malformed and changes no object, or it ends as a construction. -/
theorem exec_constructs {i : Instr} {s t : State} (hi : Constructs i) (h : exec i s = .next t) :
    t = latched s s.obj .malformedCommand ∨ Constructed s t := by
  obtain ⟨k, m, len, rfl⟩ | ⟨k, m, ftype, d, rfl⟩ := hi
  · change inAnyMode _ _ _ = _ at h
    rw [inAnyMode_eq] at h
    cases h
    split
    · exact .inr (createBody_constructed ..)
    · exact .inl rfl
  · change inAnyMode _ _ _ = _ at h
    rw [inAnyMode_eq] at h
    cases h
    split
    · exact .inr (rnyqBody_constructed ..)
    · exact .inl rfl

theorem not_constructs {i : Instr} (hi : ¬ Constructs i) :
    (∀ k m len, i ≠ .create k m len) ∧ ∀ k m ftype d, i ≠ .createRnyq k m ftype d :=
  ⟨fun k m len h => hi (.inl ⟨k, m, len, h⟩), fun k m ftype d h => hi (.inr ⟨k, m, ftype, d, h⟩)⟩

/-- Without an object only a construction makes one. -/
theorem exec_obj_none {i : Instr} {s t : State} (hi : ¬ Constructs i) (h : exec i s = .next t) (hobj : s.obj = none) :
    t.obj = none := by
  obtain ⟨hcreate, hrnyq⟩ := not_constructs hi
  obtain ⟨body, hexec⟩ := exec_eq_onObject hcreate hrnyq s
  exact onObject_obj_none (hexec ▸ h) hobj

/-- A command on an object that leaves none ended `gone`. -/
theorem onObject_gone {i : Instr} {s t : State} {body : Sync → Ending} {o : Sync} (h : onObject i s body = .next t)
    (hobj : s.obj = some o) (hobj' : t.obj = none) : body o = .gone ∧ t = answered s none .ok .none := by
  obtain ⟨rfl, -⟩ | ⟨-, hnone, -⟩ | ⟨o₁, hobj₁, -, hfin⟩ := onObject_next h
  · cases hobj.symm.trans hobj'
  · cases hobj.symm.trans hnone
  · cases hobj.symm.trans hobj₁
    obtain ⟨o', p, -, rfl⟩ | ⟨hgone, rfl⟩ | ⟨c, o', -, rfl⟩ | ⟨c, o', -, rfl⟩ := finish_next hfin
    · cases hobj'
    · exact ⟨hgone, rfl⟩
    · cases hobj'
    · cases hobj'

theorem endOk_ne_gone (x : Writes Sync) : endOk x ≠ .gone := by
  cases x <;> simp [endOk]

theorem endOutputs_ne_gone (x : Option (Writes Run)) : endOutputs x ≠ .gone := by
  unfold endOutputs
  split <;> simp

/-- Of the commands that do not construct, DESTROY alone takes the object away. -/
theorem exec_obj_some {i : Instr} {s t : State} {o : Sync} (hi : ¬ Constructs i) (h : exec i s = .next t)
    (hobj : s.obj = some o) (hobj' : t.obj = none) : i = .destroy ∧ t = answered s none .ok .none := by
  cases i with
  | create k m len => exact absurd (.inl ⟨k, m, len, rfl⟩) hi
  | createRnyq k m ftype d => exact absurd (.inr ⟨k, m, ftype, d, rfl⟩) hi
  | destroy => exact ⟨rfl, (onObject_gone h hobj hobj').2⟩
  | lock | unlock | getTau | print => cases (onObject_gone h hobj hobj').1
  | reset | setRate => exact absurd (onObject_gone h hobj hobj').1 (endOk_ne_gone _)
  | step | execute => exact absurd (onObject_gone h hobj hobj').1 (endOutputs_ne_gone _)
  | setOutputRate kOut =>
    have hgone := (onObject_gone h hobj hobj').1
    split at hgone
    · cases hgone
    · exact absurd hgone (endOk_ne_gone _)
  | setLoopBw =>
    have hgone := (onObject_gone h hobj hobj').1
    unfold setLoopBwBody at hgone
    split at hgone
    · cases hgone
    · exact absurd hgone (endOk_ne_gone _)

theorem mode_eq_configured {s : State} : s.mode = .configured ↔ ∃ o, s.obj = some o := by
  rw [State.mode_eq]
  cases s.obj <;> simp

theorem mode_eq_unconfigured {s : State} : s.mode = .unconfigured ↔ s.obj = none := by
  rw [State.mode_eq]
  cases s.obj <;> simp

/-- A reply carries its status and its payload: states that are equal answered alike. -/
theorem status_eq_of_answered_eq {s t : State} {obj obj' : Option Sync} {st st' : Status} {p p' : Payload}
    (h : answered s obj st p = answered t obj' st' p') (hout : s.outbox = t.outbox) : st = st' ∧ p = p' := by
  simpa [answered, hout] using congrArg State.outbox h

theorem latched_ne_answered_ok {s : State} {obj obj' : Option Sync} {c : FaultCode} {p : Payload} :
    latched s obj c ≠ answered s obj' .ok p := fun h => by
  simpa [latched, answered] using congrArg State.outbox h

/-- Settles O55: DESTROY is the one ending without an object outside the constructions, and a construction makes an
object exactly where it answers OK. -/
theorem modeTransitions : Obligations.ModeTransitions := by
  intro i s t h
  refine ⟨fun hs ht => ?_, fun hs ht => ?_⟩
  · obtain ⟨o, hobj⟩ := mode_eq_configured.mp hs
    have hobj' := mode_eq_unconfigured.mp ht
    by_cases hi : Constructs i
    · refine .inr ⟨hi, ?_⟩
      obtain rfl | hc := exec_constructs hi h
      · exact latched_ne_answered_ok
      · cases hc with
        | ok o' => cases hobj'
        | error e => exact fun heq => by cases (status_eq_of_answered_eq heq rfl).1
        | fault c => exact latched_ne_answered_ok
    · exact .inl (exec_obj_some hi h hobj hobj')
  · have hobj := mode_eq_unconfigured.mp hs
    obtain ⟨o', hobj'⟩ := mode_eq_configured.mp ht
    by_cases hi : Constructs i
    · refine ⟨hi, ?_⟩
      obtain rfl | hc := exec_constructs hi h
      · cases hobj.symm.trans hobj'
      · cases hc with
        | ok o' => rfl
        | error | fault => cases hobj'
    · cases (exec_obj_none hi h hobj).symm.trans hobj'

end Sys2Proof.Machine
end

section
/-! The types of values, for either `NUM` (00_scope.md R9): what an operation answers is complex exactly when an operand
is. -/

namespace Sys2Proof.Machine

@[simp] theorem real_kind (v : Rat) : (Value.real v).kind = .real := rfl
@[simp] theorem complex_kind (re im : Rat) : (Value.complex re im).kind = .complex := rfl

theorem realOf_kind {v : Except FaultCode Rat} {z : Value} (h : realOf v = .ok z) : z.kind = .real := by
  cases v <;> cases h
  rfl

theorem complexOf_kind {re im : Except FaultCode Rat} {z : Value} (h : complexOf re im = .ok z) :
    z.kind = .complex := by
  cases re <;> cases im <;> cases h
  rfl

theorem kind_eq_of_real_iff {k k' : Kind} (h : k = .real ↔ k' = .real) : k = k' := by
  cases k with
  | real => exact (h.mp rfl).symm
  | complex =>
    cases k' with
    | real => exact h.mpr rfl
    | complex => rfl

section Binary
variable {num : NumMode} {x y z : Value}

theorem addValue_kind (h : addValue num x y = .ok z) : z.kind = .real ↔ x.kind = .real ∧ y.kind = .real := by
  cases x <;> cases y
  case real.real => simp [realOf_kind h]
  all_goals simp [complexOf_kind h]

theorem subValue_kind (h : subValue num x y = .ok z) : z.kind = .real ↔ x.kind = .real ∧ y.kind = .real := by
  cases x <;> cases y
  case real.real => simp [realOf_kind h]
  all_goals simp [complexOf_kind h]

theorem mulValue_kind (h : mulValue num x y = .ok z) : z.kind = .real ↔ x.kind = .real ∧ y.kind = .real := by
  cases x <;> cases y
  case real.real => simp [realOf_kind h]
  all_goals simp [complexOf_kind h]

theorem scaleValue_kind {c : Rat} (h : scaleValue num x c = .ok z) : z.kind = x.kind := by
  cases x
  · exact realOf_kind h
  · exact complexOf_kind h

theorem divValue_kind {c : Rat} (h : divValue num x c = .ok z) : z.kind = x.kind := by
  cases x
  · exact realOf_kind h
  · exact complexOf_kind h

end Binary

@[simp] theorem zero_kind (k : Kind) : (Value.zero k).kind = k := by
  cases k <;> rfl

/-- `O` is real exactly when `S` and `C` are (00_scope.md R9). -/
theorem outputKind_eq_real_iff (t : SampleTypes) : outputKind t = .real ↔ coefKind t = .real ∧ inputKind t = .real := by
  cases t <;> decide

/-- A sum of products of taps of type `C` and samples of type `S`, from a sum of type `O`, is of type `O`. -/
theorem dotFrom_kind {num : NumMode} {types : SampleTypes} {acc v : Value} {ts xs : List Value}
    (hacc : acc.kind = outputKind types) (hts : ∀ t ∈ ts, t.kind = coefKind types)
    (hxs : ∀ x ∈ xs, x.kind = inputKind types) (h : dotFrom num acc ts xs = .ok v) : v.kind = outputKind types := by
  induction ts generalizing acc xs with
  | nil =>
    simp only [dotFrom, Except.ok.injEq] at h
    exact h ▸ hacc
  | cons t ts ih =>
    cases xs with
    | nil =>
      simp only [dotFrom, Except.ok.injEq] at h
      exact h ▸ hacc
    | cons x xs =>
      unfold dotFrom at h
      split at h
      · cases h
      · next q hq =>
        split at h
        · cases h
        · next a ha =>
          refine ih (kind_eq_of_real_iff ?_) (fun _ ht => hts _ (List.mem_cons_of_mem _ ht))
            (fun _ hx => hxs _ (List.mem_cons_of_mem _ hx)) h
          rw [addValue_kind ha, mulValue_kind hq, hacc, hts t List.mem_cons_self, hxs x List.mem_cons_self,
            outputKind_eq_real_iff, and_self]

/-- What a bank built from coefficients answers on samples is of type `O` (40_components.md R103). -/
theorem bankExec_kind {p : Params} {proto hist : List Value} {m : Nat} {i : Int} {v : Value}
    (hproto : ∀ c ∈ proto, c.kind = coefKind p.types) (hhist : ∀ x ∈ hist, x.kind = inputKind p.types)
    (h : bankExec p proto m hist i = .ok v) : v.kind = outputKind p.types := by
  unfold bankExec at h
  split at h
  · cases h
  · exact dotFrom_kind (zero_kind _) (fun _ ht => subFilter_kind hproto ht) hhist h

theorem mem_bankPush {hist : List Value} {x v : Value} (h : v ∈ bankPush hist x) : v = x ∨ v ∈ hist :=
  List.mem_cons.mp (List.mem_of_mem_take h)

theorem foldl_bankPush_length (xs hist : List Value) : (xs.foldl bankPush hist).length = hist.length := by
  induction xs generalizing hist with
  | nil => rfl
  | cons x xs ih => rw [List.foldl_cons, ih, bankPush_length]

theorem mem_foldl_bankPush {xs hist : List Value} {v : Value} (h : v ∈ xs.foldl bankPush hist) :
    v ∈ xs ∨ v ∈ hist := by
  induction xs generalizing hist with
  | nil => exact .inr h
  | cons x xs ih =>
    obtain hv | hv := ih h
    · exact .inl (List.mem_cons_of_mem x hv)
    · obtain rfl | hv := mem_bankPush hv
      · exact .inl List.mem_cons_self
      · exact .inr hv

end Sys2Proof.Machine
end

section
/-! The derivative prototype, for either `NUM`: as long as the prototype and of its type (10_state.md R26). -/

namespace Sys2Proof.Machine

/-- The results of a map that did not fault: one for each element, each of an element. -/
theorem mapExcept_ok {α β ε : Type} {f : α → Except ε β} {xs : List α} {ys : List β} (h : mapExcept f xs = .ok ys) :
    ys.length = xs.length ∧ ∀ y ∈ ys, ∃ x ∈ xs, f x = .ok y := by
  induction xs generalizing ys with
  | nil =>
    cases h
    exact ⟨rfl, fun _ hy => by cases hy⟩
  | cons x xs ih =>
    unfold mapExcept at h
    split at h
    · cases h
    · next y hy =>
      split at h
      · cases h
      · next ys' hys =>
        cases h
        obtain ⟨hlength, hmem⟩ := ih hys
        refine ⟨congrArg Nat.succ hlength, fun y' hy' => ?_⟩
        obtain rfl | hy' := List.mem_cons.mp hy'
        · exact ⟨x, List.mem_cons_self, hy⟩
        · obtain ⟨x', hx', hf⟩ := hmem y' hy'
          exact ⟨x', List.mem_cons_of_mem x hx', hf⟩

/-- A map of a function that never faults never faults. -/
theorem mapExcept_eq_map {α β ε : Type} {f : α → Except ε β} {g : α → β} {xs : List α}
    (h : ∀ x ∈ xs, f x = .ok (g x)) : mapExcept f xs = .ok (xs.map g) := by
  induction xs with
  | nil => rfl
  | cons x xs ih =>
    simp only [mapExcept, h x List.mem_cons_self, ih fun y hy => h y (List.mem_cons_of_mem x hy), List.map_cons]

section
variable {num : NumMode} {kind : Kind} {proto : List Value}

theorem refDifference_kind (hproto : ∀ v ∈ proto, v.kind = kind) {i : Nat} (hi : i < proto.length) {d : Value}
    (h : refDifference num proto i = .ok d) : d.kind = kind := by
  have hget : ∀ j, (proto.getD (j % proto.length) default).kind = kind := fun j => by
    rw [List.getD_eq_getElem _ _ (Nat.mod_lt _ (Nat.zero_lt_of_lt hi))]
    exact hproto _ (List.getElem_mem _)
  refine kind_eq_of_real_iff ?_
  rw [subValue_kind h, hget, hget, and_self]

theorem refScale_kind {mx : Rat} {d v : Value} (h : refScale num mx d = .ok v) : v.kind = d.kind := by
  obtain ⟨c, -, h⟩ := writes_bind_ok h
  obtain ⟨s, hs, h⟩ := writes_bind_ok h
  exact (divValue_kind h).trans (scaleValue_kind hs)

theorem refDeriv_ok (hproto : ∀ v ∈ proto, v.kind = kind) {dh : List Value} (h : refDeriv num kind proto = .ok dh) :
    dh.length = proto.length ∧ ∀ v ∈ dh, v.kind = kind := by
  obtain ⟨d, hd, h⟩ := writes_bind_ok h
  obtain ⟨keys, -, h⟩ := writes_bind_ok h
  obtain ⟨mx, -, h⟩ := writes_bind_ok h
  obtain ⟨hdlen, hdmem⟩ := mapExcept_ok hd
  split at h
  · cases h
    refine ⟨List.length_map _, fun v hv => ?_⟩
    obtain ⟨_, -, rfl⟩ := List.mem_map.mp hv
    exact zero_kind kind
  · obtain ⟨hlen, hmem⟩ := mapExcept_ok h
    refine ⟨by rw [hlen, hdlen, List.length_range], fun v hv => ?_⟩
    obtain ⟨x, hx, hscale⟩ := hmem v hv
    obtain ⟨i, hi, hdiff⟩ := hdmem x hx
    exact (refScale_kind hscale).trans (refDifference_kind hproto (List.mem_range.mp hi) hdiff)

end

/-- `DH` is as long as `H` and of its type, for whichever `DERIV` (10_state.md R26). -/
theorem deriveProto_ok {p : Params} {h dh : List Value} (hkind : ∀ v ∈ h, v.kind = coefKind p.types)
    (hd : deriveProto p h = .ok dh) : dh.length = h.length ∧ ∀ v ∈ dh, v.kind = coefKind p.types := by
  unfold deriveProto at hd
  split at hd
  · exact refDeriv_ok hkind hd
  · cases hd
    refine ⟨by rw [List.length_map, List.length_range], fun v hv => ?_⟩
    obtain ⟨i, -, rfl⟩ := List.mem_map.mp hv
    exact valueOfPair_kind _ _ _

end Sys2Proof.Machine
end

section
/-! The shape (10_state.md R23 to R28, R35, R37) is kept by every step, for either `NUM` and even where it faults. -/

namespace Sys2Proof.Machine

/-- The check that a construction passed (42_lifecycle.md R161). -/
theorem createCheck_eq_none {k m len : Nat} (h : createCheck k m len = none) :
    2 ≤ k ∧ 1 ≤ m ∧ 2 ≤ len ∧ (len - 1) % m = 0 := by
  unfold createCheck at h
  split at h
  · cases h
  · split at h
    · cases h
    · split at h
      · cases h
      · split at h
        · cases h
        · omega

/-- A filter that fills whole rows of the bank is longer than one row. -/
theorem succ_le_of_tiled {m len : Nat} (hlen : 2 ≤ len) (h : (len - 1) % m = 0) : m + 1 ≤ len := by
  have hle := Nat.le_of_dvd (by omega) (Nat.dvd_of_mod_eq_zero h)
  omega

/-- The object a construction makes, from what its checks demand. -/
theorem newObject_shape {p : Params} {k m : Nat} {h : List Value} {o : Sync} (hk : k < 2 ^ 16) (hm : m < 2 ^ 16)
    (hlen : h.length < 2 ^ 24) (hkind : ∀ v ∈ h, v.kind = coefKind p.types)
    (hcheck : createCheck k m h.length = none) (ho : newObject p k m h = .ok o) : ShapeOk p o := by
  obtain ⟨hk2, hm1, hlen2, hmod⟩ := createCheck_eq_none hcheck
  obtain ⟨dh, hdh, ho⟩ := writes_bind_ok ho
  obtain ⟨rate, -, ho⟩ := writes_bind_ok ho
  obtain ⟨del, -, ho⟩ := writes_bind_ok ho
  obtain ⟨coeffs, -, ho⟩ := writes_bind_ok ho
  obtain ⟨hdhlen, hdhkind⟩ := deriveProto_ok hkind hdh
  cases ho
  exact {
    k_ge := hk2, k_lt := hk, m_ge := hm1, m_lt := hm, len_ge := succ_le_of_tiled hlen2 hmod, len_lt := hlen
    len_mod := hmod, kOut_ge := le_rfl, kOut_lt := Nat.one_lt_two_pow (by decide), dc_lt := Nat.two_pow_pos _
    h_length := rfl, dh_length := hdhlen, h_kind := hkind, dh_kind := hdhkind
    hist_length := List.length_replicate
    hist_kind := fun v hv => by rw [List.eq_of_mem_replicate hv, zero_kind]
    hist_same := rfl }

/-- The object a construction left was made by `newObject` after its check. -/
theorem createBody_obj {k m len : Nat} {h : List Value} {s : State} {o : Sync}
    (ho : (createBody k m len h s).obj = some o) :
    createCheck k m len = none ∧ newObject s.params k m h = .ok o := by
  unfold createBody at ho
  split at ho
  · cases ho
  · next hcheck =>
    split at ho
    · next o' hnew =>
      cases ho
      exact ⟨hcheck, hnew⟩
    · cases ho

/-- The designer's coefficients are of type `C`, and `LEN` can count them (42_lifecycle.md R168; LOG 7). -/
theorem nyqDesign_some {p : Params} {ftype k m d : Nat} {beta : Rat} {h : List Value}
    (hd : nyqDesign p ftype k m d beta = some h) : h.length < 2 ^ 24 ∧ ∀ v ∈ h, v.kind = coefKind p.types := by
  obtain ⟨l, -, rfl⟩ := Option.map_eq_some_iff.mp hd
  refine ⟨?_, fun v hv => ?_⟩
  · rw [List.length_map, List.length_take, maxLen]
    omega
  · obtain ⟨x, -, rfl⟩ := List.mem_map.mp hv
    exact valueOfPair_kind _ _ _

/-- The object CREATE_RNYQ left was made from the designer's coefficients, after both checks. -/
theorem rnyqBody_obj {k m ftype d : Nat} {beta : Rat} {s : State} {o : Sync}
    (ho : (rnyqBody k m ftype d beta s).obj = some o) :
    ∃ h, nyqDesign s.params ftype k m d beta = some h ∧ createCheck k m h.length = none ∧
      newObject s.params k m h = .ok o := by
  unfold rnyqBody at ho
  split at ho
  · cases ho
  · split at ho
    · cases ho
    · next h hd => exact ⟨h, hd, createBody_obj ho⟩

/-- What a construction that fits its word leaves: the object that was there, where it is malformed, or one that
`newObject` made after the check, from coefficients of type `C` that `LEN` counts. -/
theorem exec_constructs_obj {i : Instr} {s t : State} {o : Sync} (hi : Constructs i) (hwf : i.wf = true)
    (h : exec i s = .next t) (hobj : t.obj = some o) :
    s.obj = some o ∨ ∃ k m hs, k < 2 ^ 16 ∧ m < 2 ^ 16 ∧ hs.length < 2 ^ 24 ∧
      (∀ v ∈ hs, v.kind = coefKind s.params.types) ∧ createCheck k m hs.length = none ∧
      newObject s.params k m hs = .ok o := by
  obtain ⟨k, m, len, rfl⟩ | ⟨k, m, ftype, d, rfl⟩ := hi
  · change inAnyMode _ _ _ = _ at h
    rw [inAnyMode_eq] at h
    cases h
    split at hobj
    · next hok =>
      obtain ⟨hcheck, hnew⟩ := createBody_obj hobj
      obtain ⟨hcount, hconforms⟩ := operandsOk_iff.mp hok
      change s.operands.length = len at hcount
      simp only [Instr.wf, Bool.and_eq_true, decide_eq_true_eq] at hwf
      obtain ⟨⟨hk, hm⟩, hlen⟩ := hwf
      exact .inr ⟨k, m, s.operands, hk, hm, hcount ▸ hlen, fun v hv => (conforms_iff.mp (hconforms v hv)).1,
        hcount ▸ hcheck, hnew⟩
    · exact .inl hobj
  · change inAnyMode _ _ _ = _ at h
    rw [inAnyMode_eq] at h
    cases h
    split at hobj
    · obtain ⟨hs, hdesign, hcheck, hnew⟩ := rnyqBody_obj hobj
      obtain ⟨hlen, hkind⟩ := nyqDesign_some hdesign
      simp only [Instr.wf, Bool.and_eq_true, decide_eq_true_eq] at hwf
      obtain ⟨⟨⟨hk, hm⟩, -⟩, -⟩ := hwf
      exact .inr ⟨k, m, hs, hk, hm, hlen, hkind, hcheck, hnew⟩
    · exact .inl hobj

/-- The shape after writes of STEP, where the samples pushed are of type `S`. -/
theorem Stepped.shapeOk {p : Params} {xs : List Value} {o o' : Sync} (h : Stepped p xs o o')
    (hkind : ∀ v ∈ xs, v.kind = inputKind p.types) (ho : ShapeOk p o) : ShapeOk p o' where
  k_ge := h.k_eq ▸ ho.k_ge
  k_lt := h.k_eq ▸ ho.k_lt
  m_ge := h.m_eq ▸ ho.m_ge
  m_lt := h.m_eq ▸ ho.m_lt
  len_ge := h.len_eq ▸ h.m_eq ▸ ho.len_ge
  len_lt := h.len_eq ▸ ho.len_lt
  len_mod := h.len_eq ▸ h.m_eq ▸ ho.len_mod
  kOut_ge := h.kOut_eq ▸ ho.kOut_ge
  kOut_lt := h.kOut_eq ▸ ho.kOut_lt
  dc_lt := h.dc_lt ho.dc_lt
  h_length := h.h_eq ▸ h.len_eq ▸ ho.h_length
  dh_length := h.dh_eq ▸ h.len_eq ▸ ho.dh_length
  h_kind := h.h_eq ▸ ho.h_kind
  dh_kind := h.dh_eq ▸ ho.dh_kind
  hist_length := by rw [h.mfHist, foldl_bankPush_length, h.len_eq, h.m_eq, ho.hist_length]
  hist_kind := fun v hv => by
    rw [h.mfHist] at hv
    exact (mem_foldl_bankPush hv).elim (hkind v) (ho.hist_kind v)
  hist_same := by rw [h.mfHist, h.dmfHist, ho.hist_same]

/-- The shape after RESET: the histories are cleared, and keep their lengths (40_components.md R105). -/
theorem ShapeOk.reset {p : Params} {o : Sync} (ho : ShapeOk p o) (del : Rat) :
    ShapeOk p { o with
      tau := 0, tauDecim := 0, bf := 0, b := 0, dc := 0, lfW := ⟨0, 0, 0⟩, del := del
      mfHist := bankReset p o.mfHist, dmfHist := bankReset p o.dmfHist } :=
  { ho with
    dc_lt := Nat.two_pow_pos _
    hist_length := List.length_replicate.trans ho.hist_length
    hist_kind := fun v hv => by rw [List.eq_of_mem_replicate hv, zero_kind]
    hist_same := congrArg (bankReset p) ho.hist_same }

/-- Whatever a well-formed command leaves of an object of the shape has the shape. -/
theorem CommandLeaves.shapeOk {p : Params} {o o' : Sync} {i : Instr} (h : CommandLeaves p o i o') (hwf : i.wf = true)
    (ho : ShapeOk p o) : ShapeOk p o' := by
  cases h with
  | same => exact ho
  | reset del => exact ho.reset del
  | lock | unlock | setRate | setLoopBw => exact { ho with }
  | setOutputRate hk rate del =>
    exact { ho with kOut_ge := Nat.one_le_iff_ne_zero.mpr hk, kOut_lt := of_decide_eq_true hwf }
  | stepping hi hkind hs => exact hs.shapeOk hkind ho

theorem exec_shaped {i : Instr} {s t : State} (hwf : i.wf = true) (hs : s.Shaped) (h : exec i s = .next t) :
    t.Shaped := by
  intro o' hobj'
  rw [(exec_replied h).params_eq]
  by_cases hi : Constructs i
  · obtain hobj | ⟨k, m, c, hk, hm, hlen, hkind, hcheck, hnew⟩ := exec_constructs_obj hi hwf h hobj'
    · exact hs o' hobj
    · exact newObject_shape hk hm hlen hkind hcheck hnew
  · cases hobj : s.obj with
    | none => cases (exec_obj_none hi h hobj).symm.trans hobj'
    | some o =>
      obtain ⟨hcreate, hrnyq⟩ := not_constructs hi
      exact (exec_leaves h hobj hobj' hcreate hrnyq).shapeOk hwf (hs o hobj)

/-- Settles O59: by the command the step runs; a decoded command fits its fields. -/
theorem stepKeepsShape : Obligations.StepKeepsShape := by
  intro s t hs h
  obtain ⟨-, ⟨-, rfl⟩ | ⟨c, rest, -, ⟨e, -, rfl⟩ | ⟨i, hd, hexec⟩⟩⟩ := step_next_exec h
  · exact hs
  · exact hs
  · exact exec_shaped (s := s.accept c rest) (encodeOfDecode _ _ hd).2 hs hexec

end Sys2Proof.Machine
end

section
/-! The outputs of a STEP and of a batch: how many there are, of what type, and that the loop ends (41_stepping.md R132,
R138 to R140). -/

namespace Sys2Proof.Machine

/-- An iteration that does not fault has room for its sample, and outputs it or skips it. -/
theorem iteration_outs {p : Params} {r r' : Run} (h : iteration p r = .ok r') :
    ∃ mf y, iterationHead p r = .ok (mf, y) ∧ (r'.outs = r.outs ∨ r'.outs = r.outs ++ [y]) := by
  obtain ⟨mf, y, hhead, ⟨-, -, rfl⟩ | ⟨-, -, _, _, -, -, rfl⟩ | ⟨-, _, -, rfl⟩⟩ := iteration_ok h
  · refine ⟨mf, y, hhead, ?_⟩
    unfold lockedSkip
    dsimp only
    split
    · exact .inr rfl
    · exact .inl rfl
  · exact ⟨mf, y, hhead, .inr rfl⟩
  · exact ⟨mf, y, hhead, .inr rfl⟩

theorem iteration_outs_length_le {p : Params} {r r' : Run} (h : iteration p r = .ok r') :
    r'.outs.length ≤ p.outCap := by
  obtain ⟨mf, y, hhead, houts⟩ := iteration_outs h
  obtain ⟨-, hroom, -⟩ := iterationHead_ok hhead
  obtain houts | houts := houts <;> rw [houts]
  · exact hroom.le
  · rw [List.length_append]
    exact hroom

/-- A STEP that completes has no more outputs than slots (41_stepping.md R132). -/
theorem stepBody_outs_length_le {p : Params} {o : Sync} {x : Value} {r : Run} (h : stepBody p o x = some (.ok r)) :
    r.outs.length ≤ p.outCap := by
  obtain ⟨r₁, o', hloop, -, rfl⟩ := stepBody_ok h
  exact (innerLoop_induct (P := fun r => r.outs.length ≤ p.outCap) (fun _ _ _ _ hi => iteration_outs_length_le hi)
    _ _ _ (Nat.zero_le _) hloop).1

/-- A bound on the iterations left: two for each slot left, a skip and an output, and the skip of the iteration that is
next (41_stepping.md R140). -/
def iterationsLeft (p : Params) (r : Run) : Nat :=
  2 * (p.outCap - r.outs.length) + if r.obj.dc = r.obj.kOut then 1 else 0

theorem iterationsLeft_lt {p : Params} {r r' : Run} (hk : 1 ≤ r.obj.kOut) (h : iteration p r = .ok r') :
    iterationsLeft p r' < iterationsLeft p r := by
  obtain ⟨mf, y, hhead, hiter⟩ := iteration_ok h
  obtain ⟨-, hroom, -⟩ := iterationHead_ok hhead
  have houtput : ∀ o, iterationsLeft p { obj := o, outs := r.outs ++ [y] } < iterationsLeft p r := fun o => by
    simp only [iterationsLeft, List.length_append, List.length_singleton]
    split <;> split <;> omega
  obtain ⟨hdc, -, rfl⟩ | ⟨-, -, _, o₂, -, -, rfl⟩ | ⟨-, o₂, -, rfl⟩ := hiter
  · have hkOut : ¬ 0 = r.obj.kOut := by omega
    have hskip : r.outs.length ≤ (lockedSkip p r y).outs.length := by
      unfold lockedSkip
      dsimp only
      split
      · rw [List.length_append]
        omega
      · exact le_rfl
    have hobj : (lockedSkip p r y).obj = { r.obj with dc := 0 } := rfl
    simp only [iterationsLeft, hobj, hdc, if_neg hkOut, if_true]
    omega
  · exact houtput o₂
  · exact houtput o₂

theorem innerLoop_ne_none {p : Params} {fuel : Nat} {r : Run} (hk : 1 ≤ r.obj.kOut) (h : iterationsLeft p r < fuel) :
    innerLoop p fuel r ≠ none := by
  induction fuel generalizing r with
  | zero => omega
  | succ fuel ih =>
    rw [innerLoop_succ]
    split
    · cases hi : iteration p r with
      | error e => simp
      | ok r' =>
        have hstepped := iteration_stepped p r
        rw [hi, leftObj_ok] at hstepped
        have hlt := iterationsLeft_lt hk hi
        exact ih (hstepped.kOut_eq ▸ hk) (by omega)
    · simp

theorem innerLoop_loopFuel_ne_none {p : Params} {r : Run} (hk : 1 ≤ r.obj.kOut) :
    innerLoop p (loopFuel p) r ≠ none := by
  refine innerLoop_ne_none hk ?_
  unfold iterationsLeft loopFuel
  split <;> omega

/-- "STEP never hangs" (41_stepping.md R140). -/
theorem stepBody_ne_none {p : Params} {o : Sync} {x : Value} (hk : 1 ≤ o.kOut) : stepBody p o x ≠ none := by
  unfold stepBody
  split
  · next hloop => exact absurd hloop (innerLoop_loopFuel_ne_none hk)
  · simp
  · split <;> simp

theorem stepMany_ne_none {p : Params} {r : Run} {xs : List Value} (hk : 1 ≤ r.obj.kOut) : stepMany p r xs ≠ none := by
  induction xs generalizing r with
  | nil => simp [stepMany]
  | cons x xs ih =>
    unfold stepMany
    split
    · next hbody => exact absurd hbody (stepBody_ne_none hk)
    · simp
    · next r' hbody => exact ih ((stepBody_stepped hbody).kOut_eq ▸ hk)

/-- The types of a run: coefficients, samples and outputs. -/
structure Run.Typed (p : Params) (r : Run) : Prop where
  h_kind : ∀ v ∈ r.obj.h, v.kind = coefKind p.types
  hist_kind : ∀ v ∈ r.obj.mfHist, v.kind = inputKind p.types
  outs_kind : ∀ y ∈ r.outs, y.kind = outputKind p.types

theorem iteration_typed {p : Params} {r r' : Run} (hr : r.Typed p) (h : iteration p r = .ok r') : r'.Typed p := by
  have hstepped := iteration_stepped p r
  rw [h, leftObj_ok] at hstepped
  obtain ⟨mf, y, hhead, hout⟩ := iteration_outs h
  obtain ⟨hmf, -, hy⟩ := iterationHead_ok hhead
  have hykind : y.kind = outputKind p.types := (divValue_kind hy).trans (bankExec_kind hr.h_kind hr.hist_kind hmf)
  refine ⟨hstepped.h_eq ▸ hr.h_kind, hstepped.mfHist ▸ hr.hist_kind, fun v hv => ?_⟩
  obtain hout | hout := hout <;> rw [hout] at hv
  · exact hr.outs_kind v hv
  · obtain hv | hv := List.mem_append.mp hv
    · exact hr.outs_kind v hv
    · exact List.mem_singleton.mp hv ▸ hykind

theorem stepBody_outs_kind {p : Params} {o : Sync} {x : Value} {r : Run} (ho : ShapeOk p o)
    (hx : x.kind = inputKind p.types) (h : stepBody p o x = some (.ok r)) :
    ∀ y ∈ r.outs, y.kind = outputKind p.types := by
  obtain ⟨r₁, o', hloop, -, rfl⟩ := stepBody_ok h
  have hstart : Run.Typed p { obj := pushSample o x, outs := [] } :=
    ⟨ho.h_kind, fun v hv => (mem_bankPush hv).elim (fun h => h ▸ hx) (ho.hist_kind v), fun _ hy => by cases hy⟩
  exact (innerLoop_induct (fun _ _ hr _ hi => iteration_typed hr hi) _ _ _ hstart hloop).1.outs_kind

theorem stepMany_outs_kind {p : Params} {r r' : Run} {xs : List Value} (ho : ShapeOk p r.obj)
    (houts : ∀ y ∈ r.outs, y.kind = outputKind p.types) (hxs : ∀ x ∈ xs, x.kind = inputKind p.types)
    (h : stepMany p r xs = some (.ok r')) : ∀ y ∈ r'.outs, y.kind = outputKind p.types := by
  induction xs generalizing r with
  | nil =>
    cases h
    exact houts
  | cons x xs ih =>
    unfold stepMany at h
    split at h
    · cases h
    · cases h
    · next r₁ hbody =>
      obtain ⟨hx, hxs⟩ := List.forall_mem_cons.mp hxs
      have hshape := (stepBody_stepped hbody).shapeOk (by simpa using hx) ho
      exact ih (r := { obj := r₁.obj, outs := r.outs ++ r₁.outs }) hshape
        (fun y hy => (List.mem_append.mp hy).elim (houts y) (stepBody_outs_kind ho hx hbody y)) hxs h

end Sys2Proof.Machine
end

section
/-! What the commands answer: every command ends (41_stepping.md R140), and an OK response carries its command's payload
(30_encoding.md R83). -/

namespace Sys2Proof.Machine

/-- A command on an object ends, unless its body does not. -/
theorem exists_onObject_next {i : Instr} {s : State} {body : Sync → Ending}
    (h : ∀ o, s.obj = some o → body o ≠ .hang) : ∃ t, onObject i s body = .next t := by
  cases hok : operandsOk s.params i s.operands with
  | false => exact ⟨_, onObject_malformed hok⟩
  | true =>
    cases hobj : s.obj with
    | none => exact ⟨_, onObject_none hobj⟩
    | some o =>
      rw [onObject_some hobj hok, finish_eq]
      have hend := h o hobj
      cases hb : body o with
      | hang => exact absurd hb hend
      | ok | gone | error | fault => exact ⟨_, rfl⟩

theorem endOk_ne_hang (x : Writes Sync) : endOk x ≠ .hang := by
  cases x <;> simp [endOk]

theorem endOutputs_ne_hang {x : Option (Writes Run)} (h : x ≠ none) : endOutputs x ≠ .hang := by
  match x with
  | none => exact absurd rfl h
  | some (.error _) => simp [endOutputs]
  | some (.ok _) => simp [endOutputs]

/-- Every command ends, where `K_OUT` is at least 1. -/
theorem exists_exec_next (i : Instr) {s : State} (hk : ∀ o, s.obj = some o → 1 ≤ o.kOut) :
    ∃ t, exec i s = .next t := by
  cases i with
  | create | createRnyq => exact ⟨_, rfl⟩
  | destroy | lock | unlock | getTau | print => exact exists_onObject_next fun _ _ => by simp
  | reset | setRate => exact exists_onObject_next fun _ _ => endOk_ne_hang _
  | setOutputRate kOut =>
    refine exists_onObject_next fun o _ => ?_
    split
    · simp
    · exact endOk_ne_hang _
  | setLoopBw =>
    refine exists_onObject_next fun o _ => ?_
    unfold setLoopBwBody
    split
    · simp
    · exact endOk_ne_hang _
  | step => exact exists_onObject_next fun o hobj => endOutputs_ne_hang (stepBody_ne_none (hk o hobj))
  | execute nx => exact exists_onObject_next fun o hobj => endOutputs_ne_hang (stepMany_ne_none (hk o hobj))

/-- Settles O14: the loop of a STEP ends within its fuel, and no other command loops. -/
theorem unlatchedUnitSteps : Obligations.UnlatchedUnitSteps := by
  intro s hfault hk
  cases hin : s.inbox with
  | nil => exact ⟨s, idleUnitWaits s hfault hin⟩
  | cons c rest =>
    cases hd : decodeWord c.word with
    | error e => exact ⟨_, step_of_decode_error hfault hin hd⟩
    | ok i =>
      rw [step_of_decode_ok hfault hin hd]
      exact exists_exec_next i hk

/-- An OK response of a command on an object is its body's. -/
theorem onObject_answered_ok {i : Instr} {s : State} {body : Sync → Ending} {obj : Option Sync} {p : Payload}
    (h : onObject i s body = .next (answered s obj .ok p)) :
    operandsOk s.params i s.operands = true ∧ ∃ o, s.obj = some o ∧
      ((∃ o', body o = .ok o' p ∧ obj = some o') ∨ body o = .gone ∧ obj = none ∧ p = .none) := by
  obtain ⟨ht, -⟩ | ⟨ht, -⟩ | ⟨o, hobj, hok, hfin⟩ := onObject_next h
  · exact absurd ht.symm latched_ne_answered_ok
  · exact absurd ht.symm latched_ne_answered_ok
  · refine ⟨hok, o, hobj, ?_⟩
    obtain ⟨o', p', hb, ht⟩ | ⟨hb, ht⟩ | ⟨c, o', -, ht⟩ | ⟨c, o', -, ht⟩ := finish_next hfin
    · obtain ⟨-, rfl⟩ := status_eq_of_answered_eq ht rfl
      exact .inl ⟨o', hb, congrArg State.obj ht⟩
    · exact .inr ⟨hb, congrArg State.obj ht, (status_eq_of_answered_eq ht rfl).2⟩
    · cases (status_eq_of_answered_eq ht rfl).1
    · exact absurd ht.symm latched_ne_answered_ok

theorem payload_eq_none_of_endOk {x : Writes Sync} {o : Sync} {p : Payload} (h : endOk x = .ok o p) : p = .none := by
  cases x <;> cases h
  rfl

theorem endOutputs_eq_ok {x : Option (Writes Run)} {o : Sync} {p : Payload} (h : endOutputs x = .ok o p) :
    ∃ us, x = some (.ok { obj := o, outs := us }) ∧ p = .outputs us.length us := by
  match x with
  | none => cases h
  | some (.error _) => cases h
  | some (.ok r) =>
    cases h
    exact ⟨r.outs, rfl, rfl⟩

/-- A batch that answers OK ran to its end. -/
theorem exec_execute_answered_ok {nx : Nat} {s : State} {o₁ : Sync} {p : Payload}
    (h : exec (.execute nx) s = .next (answered s (some o₁) .ok p)) :
    operandsOk s.params (.execute nx) s.operands = true ∧ ∃ o us, s.obj = some o ∧
      stepMany s.params { obj := o, outs := [] } s.operands = some (.ok { obj := o₁, outs := us }) ∧
      p = .outputs us.length us := by
  obtain ⟨hok, o, hobj, ⟨o', hb, ho'⟩ | ⟨-, hnone, -⟩⟩ := onObject_answered_ok h
  · cases ho'
    obtain ⟨us, hmany, hp⟩ := endOutputs_eq_ok hb
    exact ⟨hok, o, us, hobj, hmany, hp⟩
  · cases hnone

theorem execute_payloadFits {nx : Nat} {s : State} {obj : Option Sync} {p : Payload} (hs : s.Shaped)
    (h : exec (.execute nx) s = .next (answered s obj .ok p)) : payloadFits s.params.types (.execute nx) p := by
  cases obj with
  | none =>
    obtain ⟨-, o, -, ⟨_, -, hnone⟩ | ⟨hb, -⟩⟩ := onObject_answered_ok h
    · cases hnone
    · exact absurd hb (endOutputs_ne_gone _)
  | some o₁ =>
    obtain ⟨hok, o, us, hobj, hmany, rfl⟩ := exec_execute_answered_ok h
    refine ⟨us, rfl, stepMany_outs_kind (hs o hobj) (fun _ hy => by cases hy) (fun x hx => ?_) hmany⟩
    exact (conforms_iff.mp ((operandsOk_iff.mp hok).2 x hx)).1

/-- A body that never answers with a payload has no OK response with one. -/
theorem onObject_payload_eq_none {i : Instr} {s : State} {body : Sync → Ending} {obj : Option Sync} {p : Payload}
    (h : onObject i s body = .next (answered s obj .ok p)) (hbody : ∀ o o', body o = .ok o' p → p = .none) :
    p = .none := by
  obtain ⟨-, o, -, ⟨o', hb, -⟩ | ⟨-, -, hp⟩⟩ := onObject_answered_ok h
  · exact hbody o o' hb
  · exact hp

/-- An OK response carries the payload of its command (30_encoding.md R83). -/
theorem exec_payloadFits {i : Instr} {s : State} {obj : Option Sync} {p : Payload} (hs : s.Shaped)
    (h : exec i s = .next (answered s obj .ok p)) : payloadFits s.params.types i p := by
  have hconstructs : Constructs i → p = .none := fun hi => by
    obtain ht | hc := exec_constructs hi h
    · exact absurd ht.symm latched_ne_answered_ok
    · generalize ht : answered s obj .ok p = t at hc
      cases hc with
      | ok o => exact (status_eq_of_answered_eq ht rfl).2
      | error e => cases (status_eq_of_answered_eq ht rfl).1
      | fault c => exact absurd ht.symm latched_ne_answered_ok
  cases i with
  | create k m len => exact hconstructs (.inl ⟨k, m, len, rfl⟩)
  | createRnyq k m ftype d => exact hconstructs (.inr ⟨k, m, ftype, d, rfl⟩)
  | step => exact execute_payloadFits hs ((exec_execute_one s).trans h)
  | execute nx => exact execute_payloadFits hs h
  | getTau =>
    obtain ⟨-, o, -, ⟨o', hb, -⟩ | ⟨hb, -⟩⟩ := onObject_answered_ok h
    · cases hb
      exact ⟨o.tauDecim, rfl⟩
    · cases hb
  | destroy | lock | unlock | print =>
    refine onObject_payload_eq_none h fun o o' hb => ?_
    cases hb <;> rfl
  | reset | setRate => exact onObject_payload_eq_none h fun _ _ => payload_eq_none_of_endOk
  | setOutputRate kOut =>
    refine onObject_payload_eq_none h fun o o' hb => ?_
    split at hb
    · cases hb
    · exact payload_eq_none_of_endOk hb
  | setLoopBw =>
    refine onObject_payload_eq_none h fun o o' hb => ?_
    unfold setLoopBwBody at hb
    split at hb
    · cases hb
    · exact payload_eq_none_of_endOk hb

/-- A reply takes no command off the port. -/
theorem Replied.inbox_eq {s t : State} (h : Replied s t) : t.inbox = s.inbox := by
  cases h <;> rfl

theorem step_ne_next_of_latched {t : State} {c : FaultCode} (h : t.fault = some c) (t' : State) :
    step t ≠ .next t' := by
  rw [step_stuck h]
  simp

/-- Settles O13: a step with a command on the port makes one reply, whose form is `Replied`'s. -/
theorem oneResponsePerCommand : Obligations.OneResponsePerCommand := by
  intro s t c rest hshaped hin h
  obtain ⟨-, ⟨hempty, -⟩ | ⟨c', rest', hin', hran⟩⟩ := step_next_exec h
  · cases hin.symm.trans hempty
  cases hin.symm.trans hin'
  obtain ⟨e, -, rfl⟩ | ⟨i, hd, hexec⟩ := hran
  · refine ⟨rfl, ⟨.fault .reservedEncoding, .none⟩, rfl, fun hst => ?_, fun _ => rfl,
      fun f _ => step_ne_next_of_latched (c := .reservedEncoding) rfl⟩
    cases hst
  · have hreplied := exec_replied hexec
    refine ⟨hreplied.inbox_eq, ?_⟩
    cases hreplied with
    | ok obj p =>
      exact ⟨_, rfl, fun _ => ⟨i, hd, exec_payloadFits (s := s.accept c rest) hshaped hexec⟩,
        fun hne => absurd rfl hne, fun f hf => by cases hf⟩
    | error obj e =>
      refine ⟨⟨.error e, .none⟩, rfl, fun hst => ?_, fun _ => rfl, fun f hf => ?_⟩
      · cases hst
      · cases hf
    | fault obj f =>
      refine ⟨⟨.fault f, .none⟩, rfl, fun hst => ?_, fun _ => rfl, fun _ _ => step_ne_next_of_latched (c := f) rfl⟩
      cases hst

/-- Settles O48: the count is the number of the outputs, and each had a slot. -/
theorem outputCountBounded : Obligations.OutputCountBounded := by
  intro s o n ys h
  rw [← exec_execute_one] at h
  obtain ⟨hok, o₀, us, -, hmany, hp⟩ := exec_execute_answered_ok h
  obtain ⟨x, hx⟩ := exists_singleton_of_operandsOk rfl hok
  rw [hx, stepMany_singleton] at hmany
  cases hp
  exact ⟨rfl, stepBody_outs_length_le hmany⟩

end Sys2Proof.Machine
end

section
/-! EXECUTE concatenates (41_stepping.md R139). -/

namespace Sys2Proof.Machine

section StepMany
variable {p : Params} {r : Run} {xs : List Value}

theorem stepMany_cons_ok {x : Value} {r₁ : Run} (h : stepBody p r.obj x = some (.ok r₁)) (xs : List Value) :
    stepMany p r (x :: xs) = stepMany p { obj := r₁.obj, outs := r.outs ++ r₁.outs } xs := by
  rw [stepMany, h]

theorem stepMany_cons_error {x : Value} {e : FaultCode × Sync} (h : stepBody p r.obj x = some (.error e))
    (xs : List Value) : stepMany p r (x :: xs) = some (.error e) := by
  rw [stepMany, h]

theorem stepMany_append_ok {r' : Run} (h : stepMany p r xs = some (.ok r')) (ys : List Value) :
    stepMany p r (xs ++ ys) = stepMany p r' ys := by
  induction xs generalizing r with
  | nil =>
    cases h
    rfl
  | cons x xs ih =>
    rw [stepMany] at h
    split at h
    · cases h
    · cases h
    · next r₁ hbody => rw [List.cons_append, stepMany_cons_ok hbody, ih h]

theorem stepMany_append_error {e : FaultCode × Sync} (h : stepMany p r xs = some (.error e)) (ys : List Value) :
    stepMany p r (xs ++ ys) = some (.error e) := by
  induction xs generalizing r with
  | nil => cases h
  | cons x xs ih =>
    rw [stepMany] at h
    split at h
    · cases h
    · next hbody =>
      cases h
      exact stepMany_cons_error hbody (xs ++ ys)
    · next r₁ hbody => rw [List.cons_append, stepMany_cons_ok hbody, ih h]

end StepMany

/-- The outputs before a batch stand before its own. -/
theorem stepMany_outs_append (p : Params) (o : Sync) (us vs : List Value) (xs : List Value) :
    stepMany p { obj := o, outs := us ++ vs } xs =
      (stepMany p { obj := o, outs := vs } xs).map
        (Except.map fun r => { obj := r.obj, outs := us ++ r.outs }) := by
  induction xs generalizing o vs with
  | nil => rfl
  | cons x xs ih =>
    unfold stepMany
    cases stepBody p o x with
    | none => rfl
    | some w =>
      cases w with
      | error e => rfl
      | ok r =>
        dsimp only
        rw [List.append_assoc, ih]

theorem latched_inj {s : State} {obj obj' : Option Sync} {c c' : FaultCode} (h : latched s obj c = latched s obj' c') :
    obj = obj' ∧ c = c' :=
  ⟨congrArg State.obj h, Option.some.inj (congrArg State.fault h)⟩

theorem exec_execute_of_stepMany_ok {nx : Nat} {s : State} {o o₁ : Sync} {us : List Value}
    (hok : operandsOk s.params (.execute nx) s.operands = true) (hobj : s.obj = some o)
    (h : stepMany s.params { obj := o, outs := [] } s.operands = some (.ok { obj := o₁, outs := us })) :
    exec (.execute nx) s = .next (answered s (some o₁) .ok (.outputs us.length us)) := by
  rw [exec_execute_eq, onObject_some hobj hok, h, endOutputs, finish_eq]

theorem exec_execute_of_stepMany_error {nx : Nat} {s : State} {o o₁ : Sync} {c : FaultCode}
    (hok : operandsOk s.params (.execute nx) s.operands = true) (hobj : s.obj = some o)
    (h : stepMany s.params { obj := o, outs := [] } s.operands = some (.error (c, o₁))) :
    exec (.execute nx) s = .next (latched s (some o₁) c) := by
  rw [exec_execute_eq, onObject_some hobj hok, h, endOutputs, finish_eq]

/-- A batch of proper operands that answers a fault faulted as it ran. -/
theorem exec_execute_latched {nx : Nat} {s : State} {o₁ : Sync} {c : FaultCode}
    (hok : operandsOk s.params (.execute nx) s.operands = true)
    (h : exec (.execute nx) s = .next (latched s (some o₁) c)) :
    ∃ o, s.obj = some o ∧ stepMany s.params { obj := o, outs := [] } s.operands = some (.error (c, o₁)) := by
  obtain ⟨-, hbad⟩ | ⟨ht, -⟩ | ⟨o, hobj, -, hfin⟩ := onObject_next h
  · rw [hok] at hbad
    cases hbad
  · cases congrArg State.obj ht
  · refine ⟨o, hobj, ?_⟩
    generalize stepMany s.params { obj := o, outs := [] } s.operands = x at hfin
    match x with
    | none => cases hfin
    | some (.ok r) =>
      rw [endOutputs, finish_eq] at hfin
      exact absurd (Host.Outcome.next.inj hfin).symm latched_ne_answered_ok
    | some (.error (c', o')) =>
      rw [endOutputs, finish_eq] at hfin
      obtain ⟨ho, rfl⟩ := latched_inj (Host.Outcome.next.inj hfin)
      cases ho
      rfl

theorem operandsOk_execute_append {p : Params} {nx ny : Nat} {xs ys : List Value}
    (hys : operandsOk p (.execute ny) ys = true) :
    operandsOk p (.execute (nx + ny)) (xs ++ ys) = true ↔ operandsOk p (.execute nx) xs = true := by
  obtain ⟨hcount, hall⟩ := operandsOk_iff.mp hys
  change ys.length = ny at hcount
  simp only [operandsOk_iff, operandCount, List.length_append, List.mem_append, hcount, Nat.add_right_cancel_iff]
  exact and_congr_right fun _ => ⟨fun h v hv => h v (.inl hv), fun h v hv => hv.elim (h v) (hall v)⟩

/-- Settles O46: the samples of the batch are those of its parts, one list after the other, and so are the outputs. -/
theorem executeConcatenates : Obligations.ExecuteConcatenates := by
  refine ⟨fun s o₁ o₂ xs ys us vs nx ny hx hy => ?_, fun s o₁ o₂ xs ys us nx ny c hoky hx hy => ?_,
    fun s o₁ xs ys nx ny c hoky hx => ?_⟩
  · obtain ⟨hokx, o, us', hobj, hmanyx, hus⟩ := exec_execute_answered_ok (s := { s with operands := xs }) hx
    obtain ⟨hoky, o', vs', hobj', hmanyy, hvs⟩ :=
      exec_execute_answered_ok (s := { s with obj := some o₁, operands := ys }) hy
    obtain ⟨-, rfl⟩ := Payload.outputs.inj hus
    obtain ⟨-, rfl⟩ := Payload.outputs.inj hvs
    cases hobj'
    have hmany : stepMany s.params { obj := o, outs := [] } (xs ++ ys) =
        some (.ok { obj := o₂, outs := us ++ vs }) := by
      rw [stepMany_append_ok hmanyx, ← List.append_nil us, stepMany_outs_append, hmanyy, List.append_nil]
      rfl
    rw [← List.length_append]
    exact exec_execute_of_stepMany_ok (s := { s with operands := xs ++ ys }) ((operandsOk_execute_append hoky).mpr hokx)
      hobj hmany
  · obtain ⟨hokx, o, us', hobj, hmanyx, hus⟩ := exec_execute_answered_ok (s := { s with operands := xs }) hx
    obtain ⟨o', hobj', hmanyy⟩ := exec_execute_latched (s := { s with obj := some o₁, operands := ys }) hoky hy
    obtain ⟨-, rfl⟩ := Payload.outputs.inj hus
    cases hobj'
    have hmany : stepMany s.params { obj := o, outs := [] } (xs ++ ys) = some (.error (c, o₂)) := by
      rw [stepMany_append_ok hmanyx, ← List.append_nil us, stepMany_outs_append, hmanyy]
      rfl
    exact exec_execute_of_stepMany_error (s := { s with operands := xs ++ ys })
      ((operandsOk_execute_append hoky).mpr hokx) hobj hmany
  · cases hokx : operandsOk s.params (.execute nx) xs with
    | false =>
      have hok : operandsOk s.params (.execute (nx + ny)) (xs ++ ys) = false :=
        Bool.eq_false_iff.mpr fun hok => by simp [(operandsOk_execute_append hoky).mp hok] at hokx
      have hbad := exec_malformed (i := .execute nx) (s := { s with operands := xs }) hokx
      obtain ⟨hobj, rfl⟩ := latched_inj (s := s) (Host.Outcome.next.inj (hx.symm.trans hbad))
      rw [exec_malformed (i := .execute (nx + ny)) (s := { s with operands := xs ++ ys }) hok, hobj]
      rfl
    | true =>
      obtain ⟨o, hobj, hmany⟩ := exec_execute_latched (s := { s with operands := xs }) hokx hx
      exact exec_execute_of_stepMany_error (s := { s with operands := xs ++ ys })
        ((operandsOk_execute_append hoky).mpr hokx) hobj (stepMany_append_error hmany ys)

end Sys2Proof.Machine
end

section
/-! One iteration under exact `NUM`, kind by kind (41_stepping.md R132 to R136). -/

namespace Sys2Proof.Machine

theorem fitsB_iff {p : Params} {v : Int} :
    fitsB p v = true ↔ -(2 ^ (p.bWidth - 1)) ≤ v ∧ v < 2 ^ (p.bWidth - 1) := by
  simp only [fitsB, Bool.and_eq_true, decide_eq_true_eq]

/-- The phase `BF` that the tail advances to (41_stepping.md R136). -/
def Sync.nextBf (o : Sync) : Rat := (o.tau + o.del) * o.m

/-- The object after a tail that does not fault. -/
def Sync.advanced (p : Params) (o : Sync) : Sync :=
  { o with dc := (o.dc + 1) % 2 ^ p.dcWidth, tau := o.tau + o.del, bf := o.nextBf, b := roundAway o.nextBf }

section Tail
variable {p : Params} (hp : p.num = .exact) {o : Sync}
include hp

theorem advance_of_fits (hfits : fitsB p (roundAway o.nextBf) = true) : advance p o = .ok (o.advanced p) := by
  rw [advance_exact hp]
  exact if_pos hfits

theorem advance_of_not_fits (hfits : fitsB p (roundAway o.nextBf) = false) :
    advance p o = .error (.numericRange,
      { o with dc := (o.dc + 1) % 2 ^ p.dcWidth, tau := o.tau + o.del, bf := o.nextBf }) := by
  rw [advance_exact hp]
  exact if_neg (Bool.eq_false_iff.mp hfits)

theorem iterationTail_of_fits (hfits : fitsB p (roundAway o.nextBf) = true) (outs : List Value) (y : Value) :
    iterationTail p outs o y = .ok { obj := o.advanced p, outs := outs ++ [y] } := by
  rw [iterationTail, advance_of_fits hp hfits, except_ok_bind, except_pure]

end Tail

/-- Settles O43: the range test of the tail decides. -/
theorem tailAdvances : Obligations.TailAdvances := by
  refine fun p o hp _ => ⟨fun hin => advance_of_fits hp (fitsB_iff.mpr hin), fun hout => advance_of_not_fits hp ?_⟩
  refine Bool.eq_false_iff.mpr fun hfits => ?_
  obtain ⟨hlow, hhigh⟩ := fitsB_iff.mp hfits
  exact hout.elim hlow.not_gt hhigh.not_ge

section Iteration
variable {p : Params} {r : Run} {mf y : Value}

theorem iterationHead_of_full (hmf : bankExec p r.obj.h r.obj.m r.obj.mfHist r.obj.b = .ok mf)
    (hfull : p.outCap ≤ r.outs.length) : iterationHead p r = .error (.outputOverflow, r.obj) := by
  rw [iterationHead, hmf, atObj_ok, except_ok_bind, if_pos hfull]

/-- Settles O42: the test of the slots comes before any write of the iteration. -/
theorem fullSlotsFault : Obligations.FullSlotsFault := by
  intro p r mf hmf hfull
  rw [iteration, iterationHead_of_full hmf hfull, except_error_bind]

variable (hp : p.num = .exact) (hmf : bankExec p r.obj.h r.obj.m r.obj.mfHist r.obj.b = .ok mf)
  (hroom : r.outs.length < p.outCap) (hy : divValue .exact mf r.obj.k = .ok y)
include hp hmf hroom hy

theorem iteration_of_head : iteration p r = iterationRest p r mf y := by
  rw [iteration, iterationHead, hmf, atObj_ok, except_ok_bind, if_neg hroom.not_ge, hp, hy, atObj_ok, except_ok_bind,
    except_pure, except_ok_bind]

/-- Not on-time: one output, and the advance by `DEL`. -/
theorem iteration_of_offTime (hdc : r.obj.dc ≠ r.obj.kOut) (hfits : fitsB p (roundAway r.obj.nextBf) = true) :
    iteration p r = .ok { obj := r.obj.advanced p, outs := r.outs ++ [y] } := by
  rw [iteration_of_head hp hmf hroom hy, iterationRest, if_neg hdc, iterationTail_of_fits hp hfits]

/-- On-time and locked: the skip. -/
theorem iteration_of_locked (hdc : r.obj.dc = r.obj.kOut) (hl : r.obj.locked = true) :
    iteration p r = .ok (lockedSkip p r y) := by
  rw [iteration_of_head hp hmf hroom hy, iterationRest, if_pos hdc, if_pos hl]

end Iteration

section Update
variable {p : Params} {o : Sync} {mf dmf : Value} {e q : Rat} {w : Taps} (hp : p.num = .exact)
  (hdmf : bankExec p o.dh o.m o.dmfHist o.b = .ok dmf) (he : ted .exact mf dmf = .ok e)
  (hq : lfExec .exact o.lfB o.lfA o.lfW e = .ok (q, w))
include hp hdmf he hq

/-- The unlocked update: `d = K/K_OUT + q_hat`, or the fault with the loop memory alone written
(41_stepping.md R135). -/
theorem loopUpdate_of_bank :
    loopUpdate p o mf =
      if (o.k : Rat) / (o.kOut : Rat) + q ≤ 0 then .error (.nonPositiveStep, { o with lfW := w })
      else .ok { o with lfW := w, del := (o.k : Rat) / (o.kOut : Rat) + q, tauDecim := o.tau } := by
  simp only [loopUpdate, hdmf, hp, he, hq, atObj_ok, except_ok_bind, divNum_exact, addNum_exact]

end Update

section Unlocked
variable {p : Params} {r : Run} {mf y dmf : Value} {e q d : Rat} {w : Taps} (hp : p.num = .exact)
  (hroom : r.outs.length < p.outCap) (hdc : r.obj.dc = r.obj.kOut) (hl : r.obj.locked = false)
  (hmf : bankExec p r.obj.h r.obj.m r.obj.mfHist r.obj.b = .ok mf) (hy : divValue .exact mf r.obj.k = .ok y)
  (hdmf : bankExec p r.obj.dh r.obj.m r.obj.dmfHist r.obj.b = .ok dmf) (he : ted .exact mf dmf = .ok e)
  (hq : lfExec .exact r.obj.lfB r.obj.lfA r.obj.lfW e = .ok (q, w))
  (hd : d = (r.obj.k : Rat) / (r.obj.kOut : Rat) + q)
include hp hroom hdc hl hmf hy hdmf he hq hd

/-- On-time and unlocked: the update, then the tail with the new `DEL`. -/
theorem iteration_of_unlocked (hpos : 0 < d) (hfits : fitsB p (roundAway ((r.obj.tau + d) * r.obj.m)) = true) :
    iteration p r = .ok {
      obj := { r.obj with
        lfW := w, del := d, tauDecim := r.obj.tau
        tau := r.obj.tau + d, bf := (r.obj.tau + d) * r.obj.m
        b := roundAway ((r.obj.tau + d) * r.obj.m), dc := 1 % 2 ^ p.dcWidth }
      outs := r.outs ++ [y] } := by
  rw [iteration_of_head hp hmf hroom hy, iterationRest, if_pos hdc, hl, if_neg Bool.false_ne_true,
    loopUpdate_of_bank (o := { r.obj with dc := 0 }) hp hdmf he hq, ← hd, if_neg hpos.not_ge, except_ok_bind]
  exact iterationTail_of_fits (o := { r.obj with dc := 0, lfW := w, del := d, tauDecim := r.obj.tau }) hp hfits _ _

theorem iteration_of_nonPositive (hnonpos : d ≤ 0) :
    iteration p r = .error (.nonPositiveStep, { r.obj with dc := 0, lfW := w }) := by
  rw [iteration_of_head hp hmf hroom hy, iterationRest, if_pos hdc, hl, if_neg Bool.false_ne_true,
    loopUpdate_of_bank (o := { r.obj with dc := 0 }) hp hdmf he hq, ← hd, if_pos hnonpos, except_error_bind]

end Unlocked

end Sys2Proof.Machine
end

section
/-! A STEP as its iterations (41_stepping.md R131, R132, R137, R138). -/

namespace Sys2Proof.Machine

section Loop
variable {p : Params} {n fuel : Nat} {r r' : Run}

theorem innerLoop_of_exit (h : (r.obj.m : Int) ≤ r.obj.b) : innerLoop p (fuel + 1) r = some (.ok r) := by
  rw [innerLoop_succ, if_neg h.not_gt]

theorem innerLoop_of_iteration_ok (hlt : r.obj.b < (r.obj.m : Int)) (h : iteration p r = .ok r') :
    innerLoop p (fuel + 1) r = innerLoop p fuel r' := by
  rw [innerLoop_succ, if_pos hlt, h]

theorem innerLoop_of_iteration_error {e : FaultCode × Sync} (hlt : r.obj.b < (r.obj.m : Int))
    (h : iteration p r = .error e) : innerLoop p (fuel + 1) r = some (.error e) := by
  rw [innerLoop_succ, if_pos hlt, h]

theorem runIterations_of_iteration_ok (hlt : r.obj.b < (r.obj.m : Int)) (h : iteration p r = .ok r') :
    runIterations p (n + 1) r = runIterations p n r' := by
  rw [runIterations_succ, if_pos hlt, h]

/-- Iterations that leave the loop are those of the loop, with fuel for one more test. -/
theorem innerLoop_of_runIterations_ok (hfuel : n < fuel) (h : runIterations p n r = .ok r')
    (hexit : (r'.obj.m : Int) ≤ r'.obj.b) : innerLoop p fuel r = some (.ok r') := by
  obtain ⟨fuel, rfl⟩ := Nat.exists_eq_succ_of_ne_zero (Nat.ne_of_gt (Nat.zero_lt_of_lt hfuel))
  induction n generalizing r fuel with
  | zero =>
    cases h
    exact innerLoop_of_exit hexit
  | succ n ih =>
    rw [runIterations_succ] at h
    split at h
    · next hlt =>
      split at h
      · cases h
      · next r₁ hi =>
        obtain ⟨fuel, rfl⟩ := Nat.exists_eq_succ_of_ne_zero (n := fuel) (by omega)
        rw [innerLoop_of_iteration_ok hlt hi]
        exact ih h fuel (by omega)
    · cases h
      exact innerLoop_of_exit hexit

/-- A fault in one of the iterations is the loop's. -/
theorem innerLoop_of_runIterations_error {e : FaultCode × Sync} (hfuel : n ≤ fuel)
    (h : runIterations p n r = .error e) : innerLoop p fuel r = some (.error e) := by
  induction n generalizing r fuel with
  | zero => cases h
  | succ n ih =>
    obtain ⟨fuel, rfl⟩ := Nat.exists_eq_succ_of_ne_zero (n := fuel) (by omega)
    rw [runIterations_succ] at h
    split at h
    · next hlt =>
      split at h
      · next hi =>
        cases h
        exact innerLoop_of_iteration_error hlt hi
      · next r₁ hi =>
        rw [innerLoop_of_iteration_ok hlt hi]
        exact ih (by omega) h
    · cases h

/-- More fuel changes nothing where the loop ends. -/
theorem innerLoop_mono {fuel' : Nat} {x : Writes Run} (h : innerLoop p fuel r = some x) (hle : fuel ≤ fuel') :
    innerLoop p fuel' r = some x := by
  induction fuel generalizing r fuel' with
  | zero => cases h
  | succ fuel ih =>
    obtain ⟨fuel', rfl⟩ := Nat.exists_eq_succ_of_ne_zero (n := fuel') (by omega)
    rw [innerLoop_succ] at h ⊢
    split at h
    · next hlt =>
      rw [if_pos hlt]
      split at h
      · exact h
      · exact ih h (by omega)
    · next hge => rwa [if_neg hge]

/-- A STEP's fuel is enough for whatever more fuel gives, where `K_OUT` is at least 1. -/
theorem innerLoop_loopFuel_eq {x : Writes Run} (hk : 1 ≤ r.obj.kOut) (h : innerLoop p fuel r = some x) :
    innerLoop p (loopFuel p) r = some x := by
  obtain ⟨y, hy⟩ := Option.ne_none_iff_exists'.mp (innerLoop_loopFuel_ne_none (p := p) hk)
  rw [← innerLoop_mono h (le_max_right (loopFuel p) fuel), innerLoop_mono hy (le_max_left (loopFuel p) fuel), hy]

end Loop

/-- The object after the wrap, under exact `NUM` (41_stepping.md R137). -/
def Sync.wrapped (o : Sync) : Sync := { o with tau := o.tau - 1, bf := o.bf - o.m, b := o.b - o.m }

theorem stepBody_of_loop_ok {p : Params} (hp : p.num = .exact) {o : Sync} {x : Value} {r : Run}
    (h : innerLoop p (loopFuel p) { obj := pushSample o x, outs := [] } = some (.ok r)) :
    stepBody p o x = some (.ok { obj := r.obj.wrapped, outs := r.outs }) := by
  rw [stepBody, h]
  dsimp only
  rw [wrap_exact hp]
  rfl

theorem stepBody_of_loop_error {p : Params} {o : Sync} {x : Value} {e : FaultCode × Sync}
    (h : innerLoop p (loopFuel p) { obj := pushSample o x, outs := [] } = some (.error e)) :
    stepBody p o x = some (.error e) := by
  rw [stepBody, h]

section Step
variable {s : State} {o : Sync} {x : Value} (hobj : s.obj = some o) (hops : s.operands = [x])
  (hok : operandsOk s.params .step s.operands = true)
include hobj hops hok

theorem exec_step_of_body : exec .step s = finish s (endOutputs (stepBody s.params o x)) := by
  rw [exec_step_eq, onObject_some hobj hok, hops, firstOperand, List.headD_cons]

/-- A STEP whose loop ends: the wrap, and the outputs. -/
theorem exec_step_of_loop_ok (hp : s.params.num = .exact) {r : Run}
    (h : innerLoop s.params (loopFuel s.params) { obj := pushSample o x, outs := [] } = some (.ok r)) :
    exec .step s = .next (answered s (some r.obj.wrapped) .ok (.outputs r.outs.length r.outs)) := by
  rw [exec_step_of_body hobj hops hok, stepBody_of_loop_ok hp h, endOutputs, finish_eq]

/-- A STEP whose loop faults. -/
theorem exec_step_of_loop_error {c : FaultCode} {o' : Sync}
    (h : innerLoop s.params (loopFuel s.params) { obj := pushSample o x, outs := [] } = some (.error (c, o'))) :
    exec .step s = .next (latched s (some o') c) := by
  rw [exec_step_of_body hobj hops hok, stepBody_of_loop_error h, endOutputs, finish_eq]

end Step

/-- Settles O60: the iterations are the loop's, for any number of them, because a STEP's fuel is enough. -/
theorem stepRunsIterations : Obligations.StepRunsIterations := by
  intro s o x n hp hobj hops hok hk
  refine ⟨fun r hrun hexit => exec_step_of_loop_ok hobj hops hok hp ?_,
    fun c o' hrun => exec_step_of_loop_error hobj hops hok ?_⟩
  · exact innerLoop_loopFuel_eq hk (innerLoop_of_runIterations_ok (Nat.lt_succ_self n) hrun hexit)
  · exact innerLoop_loopFuel_eq hk (innerLoop_of_runIterations_error (Nat.le_refl n) hrun)

/-- Settles O38: the loop is left at its first test. -/
theorem stepWithoutOutput : Obligations.StepWithoutOutput := fun _ _ _ hp hobj hops hok hexit =>
  exec_step_of_loop_ok hobj hops hok hp (innerLoop_of_exit hexit)

/-- Settles O39: one iteration that is not on-time, then the exit of the loop. -/
theorem stepOffTimeOneOutput : Obligations.StepOffTimeOneOutput := by
  refine ⟨fun s o x mf y hp hobj hops hok hlt hcap hdc hmf hy hfits hexit => ?_,
    fun p r mf y hp hroom hdc hmf hy hfits => iteration_of_offTime hp hmf hroom hy hdc hfits⟩
  have hiter := iteration_of_offTime (r := { obj := pushSample o x, outs := [] }) hp hmf hcap hy hdc hfits
  have hloop := (innerLoop_of_iteration_ok (fuel := 2 * s.params.outCap + 1) hlt hiter).trans (innerLoop_of_exit hexit)
  exact exec_step_of_loop_ok hobj hops hok hp hloop

/-- Settles O40: one unlocked on-time iteration, then the exit of the loop, or its fault. -/
theorem stepOnTimeUnlocked : Obligations.StepOnTimeUnlocked := by
  refine ⟨fun s o x mf y dmf e q d w hp hobj hops hok hlt hcap hdc hl hmf hy hdmf he hq hd =>
      ⟨fun hpos hfits hexit => ?_, fun hnonpos => ?_⟩,
    fun p r mf y dmf e q d w hp hroom hdc hl hmf hy hdmf he hq hd =>
      ⟨iteration_of_unlocked hp hroom hdc hl hmf hy hdmf he hq hd,
        iteration_of_nonPositive hp hroom hdc hl hmf hy hdmf he hq hd⟩⟩
  · have hiter := iteration_of_unlocked (r := { obj := pushSample o x, outs := [] }) hp hcap hdc hl hmf hy hdmf he hq
      hd hpos hfits
    have hloop :=
      (innerLoop_of_iteration_ok (fuel := 2 * s.params.outCap + 1) hlt hiter).trans (innerLoop_of_exit hexit)
    exact exec_step_of_loop_ok hobj hops hok hp hloop
  · have hiter := iteration_of_nonPositive (r := { obj := pushSample o x, outs := [] }) hp hcap hdc hl hmf hy hdmf he
      hq hd hnonpos
    exact exec_step_of_loop_error hobj hops hok (innerLoop_of_iteration_error hlt hiter)

/-- Settles O41: the skip, then an iteration at the same `B` that is not on-time, then the exit of the loop. -/
theorem stepOnTimeLocked : Obligations.StepOnTimeLocked := by
  refine ⟨fun s o x mf y hp hobj hops hok hlt hcap hdc hk hl hmf hy hfits hexit => ?_,
    fun p r mf y hp hroom hdc hl hmf hy => iteration_of_locked hp hmf hroom hy hdc hl⟩
  have hslots : (lockedSkip s.params { obj := pushSample o x, outs := [] } y).outs.length < s.params.outCap := by
    unfold lockedSkip
    cases hcount : s.params.lockSkipCountsOutput <;> simp [hcount] at hcap ⊢ <;> omega
  have hroom : ([] : List Value).length < s.params.outCap := by
    rw [List.length_nil]
    omega
  have hoff : 0 ≠ o.kOut := by omega
  have hskip := iteration_of_locked (r := { obj := pushSample o x, outs := [] }) hp hmf hroom hy hdc hl
  have hiter := iteration_of_offTime (r := lockedSkip s.params { obj := pushSample o x, outs := [] } y) hp hmf hslots hy
    hoff hfits
  have hrun :=
    (runIterations_of_iteration_ok (n := 1) hlt hskip).trans (runIterations_of_iteration_ok (n := 0) hlt hiter)
  have hfuel : 2 < loopFuel s.params := by
    rw [List.length_nil] at hroom
    unfold loopFuel
    omega
  have hloop := innerLoop_of_runIterations_ok hfuel hrun hexit
  rw [exec_step_of_loop_ok hobj hops hok hp hloop, lockedSkip]
  cases s.params.lockSkipCountsOutput <;> simp [Sync.advanced, Sync.wrapped, Sync.nextBf, pushSample]

end Sys2Proof.Machine
end

section
/-! Construction under exact `NUM` (42_lifecycle.md R162, R163, R166). -/

namespace Sys2Proof.Machine

theorem subValue_exact_ok (x y : Value) : ∃ z, subValue .exact x y = .ok z := by
  cases x <;> cases y <;> exact ⟨_, rfl⟩

theorem scaleValue_exact_ok (x : Value) (c : Rat) : ∃ z, scaleValue .exact x c = .ok z := by
  cases x <;> exact ⟨_, rfl⟩

theorem modulusOf_exact_ok (kind : Kind) (key : Rat) : ∃ mx, modulusOf .exact kind key = .ok mx := by
  cases kind <;> exact ⟨_, rfl⟩

theorem refScale_exact_ok (mx : Rat) (d : Value) : ∃ v, refScale .exact mx d = .ok v := by
  obtain ⟨s, hs⟩ := scaleValue_exact_ok d (6 / 100)
  obtain ⟨v, hv, -⟩ := divValue_exact s mx
  exact ⟨v, by rw [refScale, norm_exact, except_ok_bind, hs, except_ok_bind, hv]⟩

theorem refProductKey_exact_ok (hd : Value × Value) : ∃ key, refProductKey .exact hd = .ok key := by
  obtain ⟨z, hz, -⟩ := mulValue_exact hd.1 hd.2
  exact ⟨modulusKey z, by rw [refProductKey, hz, except_ok_bind, except_pure]⟩

theorem exists_mapExcept_ok {α β ε : Type} {f : α → Except ε β} (h : ∀ x, ∃ y, f x = .ok y) (xs : List α) :
    ∃ ys, mapExcept f xs = .ok ys := by
  choose g hg using h
  exact ⟨xs.map g, mapExcept_eq_map fun x _ => hg x⟩

theorem refDeriv_exact_ok (kind : Kind) (proto : List Value) : ∃ dh, refDeriv .exact kind proto = .ok dh := by
  obtain ⟨d, hd⟩ := exists_mapExcept_ok (f := refDifference .exact proto) (fun _ => subValue_exact_ok _ _)
    (List.range proto.length)
  obtain ⟨keys, hkeys⟩ := exists_mapExcept_ok refProductKey_exact_ok (proto.zip d)
  obtain ⟨mx, hmx⟩ := modulusOf_exact_ok kind (largest keys)
  obtain ⟨dh, hdh⟩ := exists_mapExcept_ok (refScale_exact_ok mx) d
  rw [refDeriv, hd, except_ok_bind, hkeys, except_ok_bind, hmx, except_ok_bind]
  split
  · exact ⟨_, rfl⟩
  · exact ⟨dh, hdh⟩

/-- `DERIV` never faults under exact `NUM`. -/
theorem deriveProto_exact_ok {p : Params} (hp : p.num = .exact) (h : List Value) : ∃ dh, deriveProto p h = .ok dh := by
  unfold deriveProto
  split
  · rw [hp]
    exact refDeriv_exact_ok _ h
  · exact ⟨_, rfl⟩

/-- `LFCoeffs(bt)` under exact `NUM`, in lowest terms (40_components.md R109). -/
theorem lfCoeffs_exact (bt : Rat) : lfCoeffs .exact bt =
    .ok (⟨11 / 50 * bt, 0, 0⟩, ⟨1 - 1 / 2 * (1 - bt), -(99 / 200) * (1 - bt), 0⟩) := by
  have hbeta : (22 / 100 : Rat) = 11 / 50 := by norm_num
  have hb : (495 / 1000 : Rat) = 99 / 200 := by norm_num
  rw [loopCoefficients bt, hbeta, hb]

theorem newObject_exact {p : Params} (hp : p.num = .exact) {k m : Nat} {h dh : List Value}
    (hdh : deriveProto p h = .ok dh) : newObject p k m h = .ok (freshObject p k m h dh) := by
  simp only [newObject, hdh, except_ok_bind, hp, divNum_exact, initialBandwidth_exact hp, lfCoeffs_exact, except_pure,
    one_div_one_div, freshObject, lfReset]

theorem createCheck_of_tiled {k m len : Nat} (hk : 2 ≤ k) (hm : 1 ≤ m) (hlen : 2 ≤ len) (hmod : (len - 1) % m = 0) :
    createCheck k m len = none := by
  rw [createCheck, if_neg hk.not_gt, if_neg (by omega), if_neg (Nat.one_le_iff_ne_zero.mp hm), if_neg (by omega)]

theorem createBody_exact {s : State} (hp : s.params.num = .exact) {k m len : Nat} {h dh : List Value}
    (hcheck : createCheck k m len = none) (hdh : deriveProto s.params h = .ok dh) :
    createBody k m len h s = answered s (some (freshObject s.params k m h dh)) .ok .none := by
  rw [createBody, hcheck]
  dsimp only
  rw [newObject_exact hp hdh]
  rfl

/-- Settles O15: the checks pass, and no operation of the construction faults. -/
theorem createCompletes : Obligations.CreateCompletes := by
  intro s k m len hp hok hk hm hlen hmod
  obtain ⟨dh, hdh⟩ := deriveProto_exact_ok hp s.operands
  refine ⟨dh, hdh, ?_⟩
  change inAnyMode _ _ _ = _
  rw [inAnyMode_eq, if_pos hok, createBody_exact hp (createCheck_of_tiled hk hm hlen hmod) hdh]

theorem rnyqCheck_eq_none {k m d : Nat} {beta : Rat} (hk : 2 ≤ k) (hm : 1 ≤ m) (hpos : 0 < beta) (hle : beta ≤ 1)
    (hd : 1 ≤ d) : rnyqCheck k m d beta = none := by
  rw [rnyqCheck, if_neg hk.not_gt, if_neg (Nat.one_le_iff_ne_zero.mp hm), if_neg (not_not.mpr ⟨hpos, hle⟩),
    if_neg (Nat.one_le_iff_ne_zero.mp hd)]

theorem createCheck_of_untiled {k m len : Nat} (hk : 2 ≤ k) (hm : 1 ≤ m) (h : len ≤ 1 ∨ (len - 1) % m ≠ 0) :
    createCheck k m len = some .invalidFilterLength := by
  by_cases hlen : len = 0
  · exact createCheck_of_len_eq_zero hk hlen
  · exact createCheck_of_not_tiled hk hm (by omega)

/-- Settles O17: after its own checks CREATE_RNYQ is the designer's rejection, or CREATE's body. -/
theorem createRnyqCompletes : Obligations.CreateRnyqCompletes := by
  intro s k m ftype d beta hp hops hk hm hpos hle hd
  change inAnyMode _ _ _ = _
  rw [inAnyMode_eq, if_pos (operandsOk_of_number rfl rfl hp hops), hops, numberOperand_real, rnyqBody,
    rnyqCheck_eq_none hk hm hpos hle hd]
  dsimp only
  cases nyqDesign s.params ftype k m d beta with
  | none => rfl
  | some h =>
    dsimp only
    split
    · next huntiled =>
      rw [createBody, createCheck_of_untiled hk hm huntiled]
      rfl
    · next htiled =>
      obtain ⟨dh, hdh⟩ := deriveProto_exact_ok hp h
      rw [createBody_exact hp (createCheck_of_tiled hk hm (by omega) (by omega)) hdh, hdh]
      rfl

end Sys2Proof.Machine
end

section
/-! The bank and the reference derivative under exact `NUM`, as formulas (40_components.md R103, R104). -/

namespace Sys2Proof.Machine

/-- The sum of products under exact `NUM`, by its parts. -/
theorem dotFrom_exact_sum (acc : Value) {ts xs : List Value} (hlen : xs.length = ts.length) :
    ∃ v, dotFrom .exact acc ts xs = .ok v ∧
      v.re = acc.re + ∑ j ∈ Finset.range xs.length,
        ((ts.getD j default).re * (xs.getD j default).re - (ts.getD j default).im * (xs.getD j default).im) ∧
      v.im = acc.im + ∑ j ∈ Finset.range xs.length,
        ((ts.getD j default).re * (xs.getD j default).im + (ts.getD j default).im * (xs.getD j default).re) := by
  induction ts generalizing acc xs with
  | nil =>
    obtain rfl := List.eq_nil_of_length_eq_zero hlen
    exact ⟨acc, rfl, by simp, by simp⟩
  | cons t ts ih =>
    obtain ⟨x, xs, rfl⟩ := List.exists_cons_of_length_eq_add_one hlen
    obtain ⟨q, hq, hqre, hqim, -⟩ := mulValue_exact t x
    obtain ⟨a, ha, hare, haim, -⟩ := addValue_exact acc q
    obtain ⟨v, hv, hre, him⟩ := ih a (Nat.succ.inj hlen)
    refine ⟨v, by simp only [dotFrom, hq, ha, hv], ?_, ?_⟩
    · simp only [List.length_cons, Finset.sum_range_succ', List.getD_cons_succ, List.getD_cons_zero, hre, hare, hqre]
      ring
    · simp only [List.length_cons, Finset.sum_range_succ', List.getD_cons_succ, List.getD_cons_zero, him, haim, hqim]
      ring

theorem subFilter_reference {p : Params} (hsel : p.bankSel = .reference) {proto : List Value} {m i j : Nat}
    (hm : 0 < m) (hi : i < m) (hj : j < (subFilter p proto m i).length) :
    (subFilter p proto m i).getD j default = proto.getD (i + j * m) default := by
  rw [subFilter_length, histLength_reference hsel] at hj
  have hrow : (j + 1) * m ≤ proto.length - 1 := (Nat.le_div_iff_mul_le hm).mp hj
  have hin : i + j * m < proto.length := by
    rw [Nat.add_mul, Nat.one_mul] at hrow
    omega
  have hlen : j < (List.range (subLength proto.length m)).length := by
    rw [List.length_range]
    exact hj
  simp only [subFilter, hsel]
  rw [List.getD_eq_getElem _ _ (by simpa using hlen), List.getElem_map, List.getElem_range,
    List.getD_eq_getElem _ _ hin, List.getD_eq_getElem _ _ hin]

/-- Settles O30: inside the range the bank is a sum of products with the sub-filter, from the zero of type `O`. -/
theorem bankExecConvolves : Obligations.BankExecConvolves := by
  refine ⟨fun p proto m i hp hproto hi0 him => ?_, fun p proto hist m i hout => bankExec_out_of_range hout⟩
  refine ⟨subFilter p proto m i.toNat, subFilter_length .., fun v hv => subFilter_kind hproto hv,
    fun hsel => ⟨by rw [subFilter_length, histLength_reference hsel], fun j hj =>
      subFilter_reference hsel (by omega) (by omega) hj⟩, fun hist hhist hlen => ?_⟩
  have hzero : (Value.zero (outputKind p.types)).re = 0 ∧ (Value.zero (outputKind p.types)).im = 0 := by
    cases outputKind p.types <;> exact ⟨rfl, rfl⟩
  obtain ⟨v, hv, hre, him'⟩ := dotFrom_exact_sum (Value.zero (outputKind p.types)) hlen
  have hexec : bankExec p proto m hist i = .ok v := by
    rw [bankExec, if_neg (by omega), hp, hv]
  rw [hzero.1, zero_add] at hre
  rw [hzero.2, zero_add] at him'
  exact ⟨v, hexec, bankExec_kind hproto hhist hexec, hre, him'⟩

/-- Keeping the larger of two, from `a` on, ends in a bound of `a` and the list, and in one of them. -/
theorem foldl_larger {a l : Rat} {xs : List Rat} (h : xs.foldl (fun a b => if a < b then b else a) a = l) :
    a ≤ l ∧ (∀ x ∈ xs, x ≤ l) ∧ (l = a ∨ l ∈ xs) := by
  induction xs generalizing a with
  | nil => exact ⟨h.le, List.forall_mem_nil _, .inl h.symm⟩
  | cons x xs ih =>
    rw [List.foldl_cons] at h
    rw [List.forall_mem_cons, List.mem_cons]
    split at h
    · next hlt =>
      obtain ⟨hle, hall, hmem⟩ := ih h
      exact ⟨hlt.le.trans hle, ⟨hle, hall⟩, .inr hmem⟩
    · next hge =>
      obtain ⟨hle, hall, hmem⟩ := ih h
      exact ⟨hle, ⟨(not_lt.mp hge).trans hle, hall⟩, hmem.imp_right .inr⟩

theorem le_largest {xs : List Rat} {x : Rat} (hx : x ∈ xs) : x ≤ largest xs := (foldl_larger rfl).2.1 x hx

theorem largest_mem {xs : List Rat} (hne : xs ≠ []) (hnonneg : ∀ x ∈ xs, 0 ≤ x) : largest xs ∈ xs := by
  obtain ⟨-, -, hzero | hmem⟩ := foldl_larger (a := 0) (l := largest xs) rfl
  · obtain ⟨x, xs', rfl⟩ := List.exists_cons_of_ne_nil hne
    have hx : x = largest (x :: xs') :=
      le_antisymm (le_largest List.mem_cons_self) (hzero.trans_le (hnonneg x List.mem_cons_self))
    exact hx ▸ List.mem_cons_self
  · exact hmem

theorem mapExcept_map {α β γ ε : Type} (f : β → Except ε γ) (g : α → β) (xs : List α) :
    mapExcept f (xs.map g) = mapExcept (fun x => f (g x)) xs := by
  induction xs with
  | nil => rfl
  | cons x xs ih => simp only [List.map_cons, mapExcept, ih]

/-- `d[i] = H[i+1] - H[i-1]` of real coefficients, the indices wrapping around (40_components.md R104). -/
def centralDifference (rs : List Rat) (i : Nat) : Rat :=
  rs.getD ((i + 1) % rs.length) 0 - rs.getD ((i + rs.length - 1) % rs.length) 0

/-- `|H[i]*d[i]|` of real coefficients. -/
def differenceKey (rs : List Rat) (i : Nat) : Rat := |rs.getD i 0 * centralDifference rs i|

theorem getD_map_real (rs : List Rat) (j : Nat) : (rs.map Value.real).getD j default = .real (rs.getD j 0) :=
  List.getD_map rs 0 Value.real

theorem refDifference_real (rs : List Rat) (i : Nat) :
    refDifference .exact (rs.map Value.real) i = .ok (.real (centralDifference rs i)) := by
  simp only [refDifference, getD_map_real, List.length_map]
  rfl

theorem refProductKey_real (a b : Rat) : refProductKey .exact (.real a, .real b) = .ok |a * b| :=
  congrArg Except.ok (absNum_eq_abs (a * b))

theorem refScale_real (mx d : Rat) : refScale .exact mx (.real d) = .ok (.real (d * (6 / 100) / mx)) := rfl

/-- The coefficients and their differences, pairwise. -/
theorem zip_differences (rs : List Rat) :
    (rs.map Value.real).zip ((List.range rs.length).map fun i => Value.real (centralDifference rs i)) =
      (List.range rs.length).map fun i => (Value.real (rs.getD i 0), Value.real (centralDifference rs i)) := by
  refine List.ext_getElem (by simp) fun i hi _ => ?_
  have hin : i < rs.length := by simpa using hi
  simp [hin]

/-- The reference `DERIV` on real coefficients: the differences, scaled by their largest key. -/
theorem refDeriv_real {rs : List Rat} {mx : Rat} (hmx : largest ((List.range rs.length).map (differenceKey rs)) = mx) :
    refDeriv .exact .real (rs.map Value.real) =
      .ok (((List.range rs.length).map fun i =>
        if mx = 0 then 0 else centralDifference rs i * (6 / 100) / mx).map Value.real) := by
  have hd : mapExcept (refDifference .exact (rs.map Value.real)) (List.range (rs.map Value.real).length) =
      .ok ((List.range rs.length).map fun i => Value.real (centralDifference rs i)) := by
    rw [List.length_map]
    exact mapExcept_eq_map fun i _ => refDifference_real rs i
  have hkeys : mapExcept (refProductKey .exact) ((rs.map Value.real).zip
      ((List.range rs.length).map fun i => Value.real (centralDifference rs i))) =
      .ok ((List.range rs.length).map (differenceKey rs)) := by
    rw [zip_differences, mapExcept_map]
    exact mapExcept_eq_map fun i _ => refProductKey_real _ _
  have hscale : mapExcept (refScale .exact mx)
      ((List.range rs.length).map fun i => Value.real (centralDifference rs i)) =
      .ok ((List.range rs.length).map fun i => Value.real (centralDifference rs i * (6 / 100) / mx)) := by
    rw [mapExcept_map]
    exact mapExcept_eq_map fun i _ => refScale_real mx _
  rw [refDeriv, hd, except_ok_bind, hkeys, except_ok_bind, modulusOf, hmx, except_ok_bind]
  split
  · simp [Value.zero, Function.comp_def]
  · rw [hscale, List.map_map, Function.comp_def]

/-- Settles O31: the largest of the keys is attained, because there are coefficients, and it scales the differences. -/
theorem referenceDerivative : Obligations.ReferenceDerivative := by
  intro rs hlen
  have hne : (List.range rs.length).map (differenceKey rs) ≠ [] := by
    simp only [ne_eq, List.map_eq_nil_iff, List.range_eq_nil]
    omega
  have hnonneg : ∀ x ∈ (List.range rs.length).map (differenceKey rs), 0 ≤ x := fun x hx => by
    obtain ⟨i, -, rfl⟩ := List.mem_map.mp hx
    exact abs_nonneg _
  refine ⟨_, largest ((List.range rs.length).map (differenceKey rs)), refDeriv_real rfl, by simp,
    fun i hi => ?_, ?_, fun i hi => ?_⟩
  · exact le_largest (List.mem_map.mpr ⟨i, List.mem_range.mpr hi, rfl⟩)
  · obtain ⟨i, hi, hkey⟩ := List.mem_map.mp (largest_mem hne hnonneg)
    exact ⟨i, List.mem_range.mp hi, hkey⟩
  · rw [List.getD_eq_getElem _ _ (by simpa using hi), List.getElem_map, List.getElem_range]
    rfl

end Sys2Proof.Machine
end

section
/-! Rounding: to the nearest integer (00_scope.md R10), and to binary32 (LOG 1). -/

namespace Sys2Proof.Machine

/-- The model's floor is Mathlib's. -/
theorem floor_eq (v : Rat) : v.floor = ⌊v⌋ := rfl

theorem roundAway_of_nonneg {v : Rat} (h : 0 ≤ v) : roundAway v = ⌊v + 1 / 2⌋ := if_pos h

theorem roundAway_neg_of_pos {v : Rat} (h : 0 < v) : roundAway (-v) = -roundAway v := by
  rw [roundAway_of_nonneg h.le, roundAway, if_neg (by linarith), neg_neg, floor_eq]

/-- `round` of a number that is not negative, of two nearest integers the larger. -/
theorem roundAway_nearest_of_nonneg {v : Rat} (h : 0 ≤ v) :
    |(roundAway v : Rat) - v| ≤ 1 / 2 ∧ (|(roundAway v : Rat) - v| = 1 / 2 → |v| < |(roundAway v : Rat)|) := by
  rw [roundAway_of_nonneg h]
  have hle := Int.floor_le (v + 1 / 2)
  have hlt := Int.lt_floor_add_one (v + 1 / 2)
  refine ⟨abs_le.mpr ⟨by linarith, by linarith⟩, fun htie => ?_⟩
  have hup : (⌊v + 1 / 2⌋ : Rat) = v + 1 / 2 := by
    obtain hpos | hneg := (abs_eq (by norm_num)).mp htie <;> linarith
  rw [hup, abs_of_nonneg h, abs_of_nonneg (by linarith)]
  linarith

/-- Settles O36: a negative number is rounded as its opposite. -/
theorem roundHalfAway : Obligations.RoundHalfAway := by
  intro v
  obtain hnonneg | hneg := le_or_gt 0 v
  · exact roundAway_nearest_of_nonneg hnonneg
  · obtain ⟨hnear, htie⟩ := roundAway_nearest_of_nonneg (neg_pos.mpr hneg).le
    have hround : (roundAway v : Rat) = -(roundAway (-v) : Rat) := by
      rw [← Int.cast_neg, ← roundAway_neg_of_pos (neg_pos.mpr hneg), neg_neg]
    have hdist : |(roundAway v : Rat) - v| = |(roundAway (-v) : Rat) - -v| := by
      rw [hround, ← abs_neg]
      congr 1
      ring
    rw [hdist, hround, abs_neg]
    exact ⟨hnear, fun h => abs_neg v ▸ htie h⟩

/-- `pow2` is the power of two with an integer exponent. -/
theorem pow2_eq_zpow (e : Int) : pow2 e = (2 : Rat) ^ e := by
  unfold pow2
  split
  · next h =>
    obtain ⟨n, rfl⟩ := Int.eq_ofNat_of_zero_le h
    simp
  · next h =>
    obtain ⟨n, hn⟩ := Int.eq_ofNat_of_zero_le (a := -e) (by omega)
    obtain rfl : e = -n := by omega
    simp

/-- Rounding to an integer does not pass an integer below. -/
theorem le_roundHalfEven {v : Rat} {n : Int} (h : (n : Rat) ≤ v) : n ≤ roundHalfEven v := by
  have hfloor : n ≤ v.floor := Int.le_floor.mpr h
  unfold roundHalfEven
  dsimp only
  split
  · exact hfloor
  · split
    · omega
    · split <;> omega

/-- Rounding to an integer does not pass an integer above. -/
theorem roundHalfEven_le {v : Rat} {n : Int} (h : v ≤ (n : Rat)) : roundHalfEven v ≤ n := by
  have hfloor : v.floor ≤ n := Int.cast_le.mp ((Int.floor_le v).trans h)
  have hup : 0 < v - v.floor → v.floor + 1 ≤ n := fun hpos =>
    Int.cast_lt.mp ((sub_pos.mp hpos).trans_le h)
  unfold roundHalfEven
  dsimp only
  split
  · exact hfloor
  · next hhalf =>
    have hsucc := hup (by linarith)
    split
    · exact hsucc
    · split
      · exact hfloor
      · exact hsucc

/-- Rounding keeps a size that is an integer at least. -/
theorem le_abs_roundHalfEven {v : Rat} {n : Nat} (h : (n : Rat) ≤ |v|) : (n : Rat) ≤ |(roundHalfEven v : Rat)| := by
  obtain hpos | hneg := le_abs.mp h
  · have hle : (n : Int) ≤ roundHalfEven v := le_roundHalfEven (by exact_mod_cast hpos)
    exact le_abs.mpr (.inl (by exact_mod_cast hle))
  · have hle : roundHalfEven v ≤ -(n : Int) := roundHalfEven_le (by push_cast; linarith)
    have hcast : (roundHalfEven v : Rat) ≤ -(n : Rat) := by exact_mod_cast hle
    exact le_abs.mpr (.inr (by linarith))

theorem zpow_log2_le {n : Nat} (h : n ≠ 0) : (2 : Rat) ^ (n.log2 : Int) ≤ n := by
  rw [zpow_natCast]
  exact_mod_cast Nat.log2_self_le h

theorem lt_zpow_log2_succ (n : Nat) : (n : Rat) < (2 : Rat) ^ ((n.log2 : Int) + 1) := by
  exact_mod_cast Nat.lt_log2_self (n := n)

/-- The size of a rational is the quotient of its numerator's size and its denominator. -/
theorem abs_eq_natAbs_div_den (v : Rat) : |v| = (v.num.natAbs : Rat) / (v.den : Rat) := by
  rw [Rat.abs_def, Rat.divInt_eq_div, Int.cast_natCast, Int.cast_natCast]

/-- The binade of a number bounds its size from both sides. -/
theorem binade_bounds {v : Rat} (hv : v ≠ 0) : (2 : Rat) ^ binade v ≤ |v| ∧ |v| < (2 : Rat) ^ (binade v + 1) := by
  have hden : (0 : Rat) < v.den := Nat.cast_pos.mpr v.den_pos
  have hnumlow := zpow_log2_le (n := v.num.natAbs) (Int.natAbs_ne_zero.mpr (Rat.num_ne_zero.mpr hv))
  have hnumhigh := lt_zpow_log2_succ v.num.natAbs
  have hdenlow := zpow_log2_le (n := v.den) v.den_pos.ne'
  have hdenhigh := lt_zpow_log2_succ v.den
  have hlow : (2 : Rat) ^ ((v.num.natAbs.log2 : Int) - (v.den.log2 : Int) - 1) ≤ |v| := by
    rw [abs_eq_natAbs_div_den, sub_sub, zpow_sub₀ two_ne_zero]
    exact div_le_div₀ (Nat.cast_nonneg _) hnumlow hden hdenhigh.le
  have hhigh : |v| < (2 : Rat) ^ ((v.num.natAbs.log2 : Int) - (v.den.log2 : Int) + 1) := by
    rw [abs_eq_natAbs_div_den, sub_add_eq_add_sub, zpow_sub₀ two_ne_zero]
    exact div_lt_div₀ hnumhigh hdenlow (zpow_pos two_pos _).le (zpow_pos two_pos _)
  unfold binade
  dsimp only
  rw [pow2_eq_zpow, absNum_eq_abs]
  split
  · next h => exact ⟨h, hhigh⟩
  · next h =>
    rw [sub_add_cancel]
    exact ⟨hlow, not_le.mp h⟩

/-- Where the exact value is 2^128 or more in size the last place is that of a normal number, and the rounded value is
in the same binade or above. -/
theorem toBinary32_eq_none {v : Rat} (h : 2 ^ 128 ≤ |v|) : toBinary32 v = none := by
  have hv : v ≠ 0 := fun h0 => by norm_num [h0] at h
  obtain ⟨hlow, hhigh⟩ := binade_bounds hv
  have hbinade : 128 ≤ binade v := by
    have hlt : (2 : Rat) ^ (128 : Int) < 2 ^ (binade v + 1) := lt_of_le_of_lt (by exact_mod_cast h) hhigh
    have hexp := (zpow_lt_zpow_iff_right₀ one_lt_two).mp hlt
    omega
  have hplace : max (binade v - 23) (-149) = binade v - 23 := max_eq_left (by omega)
  have hpos : (0 : Rat) < 2 ^ (binade v - 23) := zpow_pos two_pos _
  have hunits : ((2 ^ 23 : Nat) : Rat) ≤ |v / 2 ^ (binade v - 23)| := by
    rw [abs_div, abs_of_pos hpos, le_div_iff₀ hpos]
    calc ((2 ^ 23 : Nat) : Rat) * 2 ^ (binade v - 23) = 2 ^ (23 + (binade v - 23)) := by
          rw [zpow_add₀ two_ne_zero]
          norm_num
      _ = 2 ^ binade v := by rw [add_sub_cancel]
      _ ≤ |v| := hlow
  have hsize : (2 : Rat) ^ (128 : Int) ≤ |(roundHalfEven (v / 2 ^ (binade v - 23)) : Rat) * 2 ^ (binade v - 23)| := by
    rw [abs_mul, abs_of_pos hpos]
    calc (2 : Rat) ^ (128 : Int) ≤ 2 ^ (23 + (binade v - 23)) :=
          zpow_le_zpow_right₀ one_le_two (by omega)
      _ = ((2 ^ 23 : Nat) : Rat) * 2 ^ (binade v - 23) := by
          rw [zpow_add₀ two_ne_zero]
          norm_num
      _ ≤ _ := mul_le_mul_of_nonneg_right (le_abs_roundHalfEven hunits) hpos.le
  unfold toBinary32
  rw [if_neg hv]
  dsimp only
  rw [hplace, pow2_eq_zpow, pow2_eq_zpow, absNum_eq_abs, if_neg hsize.not_gt]

/-- Settles O37: the rounding of the product has no finite value. -/
theorem binaryOverflowFaults : Obligations.BinaryOverflowFaults := by
  intro a b h
  rw [mulNum, norm, toBinary32_eq_none h]

end Sys2Proof.Machine
end

section
/-! The loop filter's output is bounded (40_components.md R115). -/

namespace Sys2Proof.Machine

/-- The bound of the loop filter's memory on inputs in [-1, 1], for the coefficients of `bt`: where the input and the
feedback together can not pass it. -/
def memoryBound (bt : Rat) : Rat := (1 - 1 / 2 * (1 - bt)) / (1 / 200 + 199 / 200 * bt)

section
variable {bt : Rat} (h0 : 0 ≤ bt) (h1 : bt ≤ 1)
include h0

theorem lfA_c0_pos : 0 < 1 - 1 / 2 * (1 - bt) := by linarith

theorem memoryBound_denominator_pos : 0 < 1 / 200 + 199 / 200 * bt := by linarith

theorem memoryBound_pos : 0 < memoryBound bt := div_pos (lfA_c0_pos h0) (memoryBound_denominator_pos h0)

/-- The bound is the fixed point of the recursion. -/
theorem memoryBound_fixed :
    1 + 99 / 200 * (1 - bt) / (1 - 1 / 2 * (1 - bt)) * memoryBound bt = memoryBound bt := by
  have ha := (lfA_c0_pos h0).ne'
  have hd := (memoryBound_denominator_pos h0).ne'
  have hfeedback : 99 / 200 * (1 - bt) = (1 - 1 / 2 * (1 - bt)) - (1 / 200 + 199 / 200 * bt) := by ring
  rw [memoryBound, hfeedback, div_mul_div_cancel₀ ha, sub_div, div_self hd]
  ring

theorem outputBound_eq :
    11 / 50 * bt * memoryBound bt / (1 - 1 / 2 * (1 - bt)) = 11 / 50 * bt / (1 / 200 + 199 / 200 * bt) := by
  rw [memoryBound, mul_div_assoc, div_div, mul_comm (1 / 200 + _), ← div_div, div_self (lfA_c0_pos h0).ne', mul_one_div]

include h1

theorem outputBound_le : 11 / 50 * bt / (1 / 200 + 199 / 200 * bt) ≤ 11 / 50 := by
  rw [div_le_iff₀ (memoryBound_denominator_pos h0)]
  linarith

/-- One step from a bounded memory, on an input in [-1, 1]: the new memory element and the output are bounded. -/
theorem lfExec_bounded {w : Taps} {x : Rat} (hw : |w.c0| ≤ memoryBound bt) (hx : |x| ≤ 1) :
    ∃ y w0, lfExec .exact ⟨11 / 50 * bt, 0, 0⟩ ⟨1 - 1 / 2 * (1 - bt), -(99 / 200) * (1 - bt), 0⟩ w x =
        .ok (y, ⟨w0, w.c0, w.c1⟩) ∧
      |w0| ≤ memoryBound bt ∧ |y| ≤ 11 / 50 * bt / (1 / 200 + 199 / 200 * bt) := by
  obtain ⟨y, w0, hexec, hw0, hy⟩ := loopFilterStep ⟨11 / 50 * bt, 0, 0⟩
    ⟨1 - 1 / 2 * (1 - bt), -(99 / 200) * (1 - bt), 0⟩ w x
  have ha := lfA_c0_pos h0
  have hratio : 0 ≤ 99 / 200 * (1 - bt) / (1 - 1 / 2 * (1 - bt)) := div_nonneg (by linarith) ha.le
  have hw0' : w0 = x + 99 / 200 * (1 - bt) / (1 - 1 / 2 * (1 - bt)) * w.c0 := by
    rw [hw0]
    ring
  have hy' : y = 11 / 50 * bt * w0 / (1 - 1 / 2 * (1 - bt)) := by
    rw [hy]
    ring
  have hmem : |w0| ≤ memoryBound bt := by
    calc |w0| ≤ |x| + |99 / 200 * (1 - bt) / (1 - 1 / 2 * (1 - bt)) * w.c0| := hw0' ▸ abs_add_le _ _
      _ = |x| + 99 / 200 * (1 - bt) / (1 - 1 / 2 * (1 - bt)) * |w.c0| := by rw [abs_mul, abs_of_nonneg hratio]
      _ ≤ 1 + 99 / 200 * (1 - bt) / (1 - 1 / 2 * (1 - bt)) * memoryBound bt :=
          add_le_add hx (mul_le_mul_of_nonneg_left hw hratio)
      _ = memoryBound bt := memoryBound_fixed h0
  refine ⟨y, w0, hexec, hmem, ?_⟩
  have hbeta : 0 ≤ 11 / 50 * bt := by linarith
  calc |y| = 11 / 50 * bt * |w0| / (1 - 1 / 2 * (1 - bt)) := by
        rw [hy', abs_div, abs_mul, abs_of_nonneg hbeta, abs_of_pos ha]
    _ ≤ 11 / 50 * bt * memoryBound bt / (1 - 1 / 2 * (1 - bt)) :=
        div_le_div_of_nonneg_right (mul_le_mul_of_nonneg_left hmem hbeta) ha.le
    _ = _ := outputBound_eq h0

/-- On inputs in [-1, 1] a bounded memory stays bounded, and every output is. -/
theorem lfRun_bounded {xs : List Rat} (hxs : ∀ x ∈ xs, |x| ≤ 1) {w : Taps} (hw : |w.c0| ≤ memoryBound bt) :
    ∃ ys, lfRun .exact ⟨11 / 50 * bt, 0, 0⟩ ⟨1 - 1 / 2 * (1 - bt), -(99 / 200) * (1 - bt), 0⟩ w xs = .ok ys ∧
      ys.length = xs.length ∧ ∀ y ∈ ys, |y| ≤ 11 / 50 * bt / (1 / 200 + 199 / 200 * bt) := by
  induction xs generalizing w with
  | nil => exact ⟨[], rfl, rfl, List.forall_mem_nil _⟩
  | cons x xs ih =>
    obtain ⟨hx, hxs⟩ := List.forall_mem_cons.mp hxs
    obtain ⟨y, w0, hexec, hmem, hy⟩ := lfExec_bounded h0 h1 hw hx
    obtain ⟨ys, hrun, hlen, hall⟩ := ih hxs (w := ⟨w0, w.c0, w.c1⟩) hmem
    exact ⟨y :: ys, by rw [lfRun, hexec]; dsimp only; rw [hrun], congrArg Nat.succ hlen,
      List.forall_mem_cons.mpr ⟨hy, hall⟩⟩

end

/-- Settles O35: zero memory is within the bound, and the bound of the output is at most 0.22. -/
theorem loopOutputBounded : Obligations.LoopOutputBounded := by
  intro bt xs h0 h1 hxs
  obtain ⟨ys, hrun, hlen, hall⟩ := lfRun_bounded h0 h1 hxs (w := ⟨0, 0, 0⟩) (by simpa using (memoryBound_pos h0).le)
  exact ⟨ys, hrun, hlen, fun y hy => ⟨hall y hy, (hall y hy).trans (outputBound_le h0 h1)⟩⟩

end Sys2Proof.Machine
end

section
/-! The phase under exact `NUM` (10_state.md R43): the relations of `TAU`, `BF` and `B` hold inside a STEP too, and
there every bank index is in range (41_stepping.md R141). -/

namespace Sys2Proof.Machine

/-- From just above -1/2 `round` is the floor of the half-up sum: a tie below zero is not met (10_state.md R43 (e)). -/
theorem roundAway_eq_floor {v : Rat} (h : -(1 / 2) < v) : roundAway v = (v + 1 / 2).floor := by
  obtain hnonneg | hneg := le_or_gt 0 v
  · exact roundAway_of_nonneg hnonneg
  · have hzero : ⌊-v + 1 / 2⌋ = 0 := Int.floor_eq_zero_iff.mpr ⟨by linarith, by linarith⟩
    have hzero' : ⌊v + 1 / 2⌋ = 0 := Int.floor_eq_zero_iff.mpr ⟨by linarith, by linarith⟩
    rw [roundAway, if_neg hneg.not_ge, floor_eq, floor_eq, hzero, hzero', neg_zero]

namespace PhaseOk
variable {p : Params} {o : Sync} (ho : PhaseOk p o)
include ho

theorem b_lt_m_iff : o.b < (o.m : Int) ↔ o.bf + 1 / 2 < o.m := by
  rw [ho.b_eq, floor_eq, Int.floor_lt, Int.cast_natCast]

theorem m_le_b_iff : (o.m : Int) ≤ o.b ↔ (o.m : Rat) ≤ o.bf + 1 / 2 := by
  rw [← not_lt, ho.b_lt_m_iff, not_lt]

theorem m_pos_of_lt (hlt : o.b < (o.m : Int)) : (0 : Rat) < o.m := by
  have hb := ho.b_nonneg
  exact_mod_cast (show 0 < o.m by omega)

/-- In an iteration both banks are executed inside their range (41_stepping.md R141). -/
theorem bankExec_ok (hp : p.num = .exact) (hlt : o.b < (o.m : Int)) (proto hist : List Value) :
    ∃ v, bankExec p proto o.m hist o.b = .ok v :=
  bankExec_exact_ok hp ho.b_nonneg hlt

theorem nextBf_eq : o.nextBf = o.bf + o.del * o.m := by
  rw [Sync.nextBf, ho.bf_eq, add_mul]

theorem nextBf_gt (hlt : o.b < (o.m : Int)) : -(1 / 2) < o.nextBf := by
  have hstep := mul_pos ho.del_pos (ho.m_pos_of_lt hlt)
  have hbf := ho.bf_ge
  rw [ho.nextBf_eq]
  linarith

/-- The phase after a tail that does not fault. -/
theorem advanced (hlt : o.b < (o.m : Int)) (hfits : fitsB p (roundAway o.nextBf) = true) :
    PhaseOk p (o.advanced p) where
  del_pos := ho.del_pos
  bf_eq := rfl
  bf_ge := (ho.nextBf_gt hlt).le
  b_eq := roundAway_eq_floor (ho.nextBf_gt hlt)
  b_nonneg := by
    have hgt := ho.nextBf_gt hlt
    change 0 ≤ roundAway o.nextBf
    rw [roundAway_eq_floor hgt]
    have hpos : 0 ≤ o.nextBf + 1 / 2 := by linarith
    exact Int.floor_nonneg.mpr hpos
  b_fits := hfits

/-- The phase after the wrap, where the loop was left (41_stepping.md R137). -/
theorem wrapped (hexit : (o.m : Int) ≤ o.b) : PhaseOk p o.wrapped where
  del_pos := ho.del_pos
  bf_eq := by
    change o.bf - o.m = (o.tau - 1) * o.m
    rw [ho.bf_eq, sub_mul, one_mul]
  bf_ge := by
    have hbf := ho.m_le_b_iff.mp hexit
    change -(1 / 2) ≤ o.bf - o.m
    linarith
  b_eq := by
    change o.b - o.m = ⌊o.bf - o.m + 1 / 2⌋
    rw [ho.b_eq, sub_add_eq_add_sub, Int.floor_sub_natCast, floor_eq]
  b_nonneg := sub_nonneg.mpr hexit
  b_fits := by
    obtain ⟨-, hhigh⟩ := fitsB_iff.mp ho.b_fits
    have hpow : (0 : Int) < 2 ^ (p.bWidth - 1) := pow_pos two_pos _
    have hb := ho.b_nonneg
    change fitsB p (o.b - o.m) = true
    rw [fitsB_iff]
    omega

theorem pushed (x : Value) : PhaseOk p (pushSample o x) := { ho with }

end PhaseOk

/-- Under exact `NUM` a tail that does not fault passed the range test. -/
theorem advance_exact_ok {p : Params} (hp : p.num = .exact) {o o' : Sync} (h : advance p o = .ok o') :
    fitsB p (roundAway o.nextBf) = true ∧ o' = o.advanced p := by
  cases hfits : fitsB p (roundAway o.nextBf) with
  | true =>
    rw [advance_of_fits hp hfits] at h
    exact ⟨rfl, (Except.ok.inj h).symm⟩
  | false =>
    rw [advance_of_not_fits hp hfits] at h
    cases h

/-- Every iteration keeps the phase. -/
theorem iteration_phaseOk {p : Params} (hp : p.num = .exact) {r r' : Run} (hr : PhaseOk p r.obj)
    (hlt : r.obj.b < (r.obj.m : Int)) (h : iteration p r = .ok r') : PhaseOk p r'.obj := by
  obtain ⟨mf, y, -, ⟨-, -, rfl⟩ | ⟨-, -, o₁, o₂, hupdate, hadvance, rfl⟩ | ⟨-, o₂, hadvance, rfl⟩⟩ := iteration_ok h
  · exact { hr with }
  · obtain ⟨_, _, _, w, _, d, -, -, -, -, -, hd, rfl⟩ := loopUpdate_ok hupdate
    obtain ⟨hfits, rfl⟩ := advance_exact_ok hp hadvance
    have hupdated : PhaseOk p { r.obj with dc := 0, lfW := w, del := d, tauDecim := r.obj.tau } :=
      { hr with del_pos := hd }
    exact hupdated.advanced hlt hfits
  · obtain ⟨hfits, rfl⟩ := advance_exact_ok hp hadvance
    exact hr.advanced hlt hfits

/-- A STEP that completes under exact `NUM`: the loop from the pushed object, then the wrap. -/
theorem stepBody_exact_ok {p : Params} (hp : p.num = .exact) {o : Sync} {x : Value} {r : Run}
    (h : stepBody p o x = some (.ok r)) :
    ∃ r₁, innerLoop p (loopFuel p) { obj := pushSample o x, outs := [] } = some (.ok r₁) ∧
      r = { obj := r₁.obj.wrapped, outs := r₁.outs } := by
  obtain ⟨r₁, o', hloop, hwrap, rfl⟩ := stepBody_ok h
  rw [wrap_exact hp] at hwrap
  cases hwrap
  exact ⟨r₁, hloop, rfl⟩

theorem stepBody_phaseOk {p : Params} (hp : p.num = .exact) {o : Sync} {x : Value} {r : Run} (ho : PhaseOk p o)
    (h : stepBody p o x = some (.ok r)) : PhaseOk p r.obj := by
  obtain ⟨r₁, hloop, rfl⟩ := stepBody_exact_ok hp h
  obtain ⟨hr₁, hexit⟩ := innerLoop_induct (P := fun r => PhaseOk p r.obj)
    (fun _ _ hr hlt hi => iteration_phaseOk hp hr hlt hi) _ _ _ (ho.pushed x) hloop
  exact hr₁.wrapped hexit

theorem stepMany_phaseOk {p : Params} (hp : p.num = .exact) {r r' : Run} {xs : List Value} (hr : PhaseOk p r.obj)
    (h : stepMany p r xs = some (.ok r')) : PhaseOk p r'.obj := by
  induction xs generalizing r with
  | nil =>
    cases h
    exact hr
  | cons x xs ih =>
    unfold stepMany at h
    split at h
    · cases h
    · cases h
    · next r₁ hbody =>
      have hr₁ : PhaseOk p r₁.obj := stepBody_phaseOk hp hr hbody
      exact ih (r := { obj := r₁.obj, outs := r.outs ++ r₁.outs }) hr₁ h

end Sys2Proof.Machine
end

section
/-! The faults under exact `NUM`: which codes a command can raise (60_exceptions.md R222). -/

namespace Sys2Proof.Machine

/-- The codes that STEP raises under exact `NUM` on an object of the invariant (41_stepping.md R132, R135, R136). -/
def stepCodes : List FaultCode := [.outputOverflow, .nonPositiveStep, .numericRange]

theorem bankExec_exact_error {p : Params} (hp : p.num = .exact) {proto hist : List Value} {m : Nat} {i : Int}
    {c : FaultCode} (h : bankExec p proto m hist i = .error c) : c = .bankIndexOutOfRange ∧ ¬(0 ≤ i ∧ i < m) := by
  by_cases hin : 0 ≤ i ∧ i < (m : Int)
  · obtain ⟨v, hv⟩ := bankExec_exact_ok hp (proto := proto) (hist := hist) hin.1 hin.2
    cases hv.symm.trans h
  · rw [bankExec_out_of_range (by omega)] at h
    cases h
    exact ⟨rfl, hin⟩

theorem iterationHead_exact_error {p : Params} (hp : p.num = .exact) {r : Run} {c : FaultCode} {o : Sync}
    (h : iterationHead p r = .error (c, o)) :
    c ∈ stepCodes ∨ c = .bankIndexOutOfRange ∧ ¬(0 ≤ r.obj.b ∧ r.obj.b < r.obj.m) := by
  obtain h | ⟨mf, -, h⟩ := writes_bind_error h
  · exact .inr (bankExec_exact_error hp (atObj_eq_error.mp h).1)
  · split at h
    · cases h
      exact .inl (by decide)
    · obtain ⟨y, hy, -⟩ := divValue_exact mf r.obj.k
      rw [hp, hy] at h
      cases h

theorem iterationTail_exact_error {p : Params} (hp : p.num = .exact) {outs : List Value} {o o' : Sync} {y : Value}
    {c : FaultCode} (h : iterationTail p outs o y = .error (c, o')) : c ∈ stepCodes := by
  cases hfits : fitsB p (roundAway o.nextBf) with
  | true =>
    rw [iterationTail_of_fits hp hfits] at h
    cases h
  | false =>
    rw [iterationTail, advance_of_not_fits hp hfits] at h
    cases h
    decide

theorem loopUpdate_exact_error {p : Params} (hp : p.num = .exact) {o o' : Sync} {mf : Value} {c : FaultCode}
    (h : loopUpdate p o mf = .error (c, o')) :
    c ∈ stepCodes ∨ c = .bankIndexOutOfRange ∧ ¬(0 ≤ o.b ∧ o.b < o.m) := by
  cases hdmf : bankExec p o.dh o.m o.dmfHist o.b with
  | error c' =>
    rw [loopUpdate, hdmf] at h
    cases h
    exact .inr (bankExec_exact_error hp hdmf)
  | ok dmf =>
    rw [loopUpdate_of_bank hp hdmf (ted_exact mf dmf) (lfExec_exact ..)] at h
    split at h
    · cases h
      exact .inl (by decide)
    · cases h

theorem iteration_exact_error {p : Params} (hp : p.num = .exact) {r : Run} {c : FaultCode} {o : Sync}
    (h : iteration p r = .error (c, o)) :
    c ∈ stepCodes ∨ c = .bankIndexOutOfRange ∧ ¬(0 ≤ r.obj.b ∧ r.obj.b < r.obj.m) := by
  obtain h | ⟨v, -, h⟩ := writes_bind_error h
  · exact iterationHead_exact_error hp h
  · unfold iterationRest at h
    split at h
    · split at h
      · cases h
      · obtain h | ⟨o₁, -, h⟩ := writes_bind_error h
        · exact loopUpdate_exact_error (o := { r.obj with dc := 0 }) hp h
        · exact .inl (iterationTail_exact_error hp h)
    · exact .inl (iterationTail_exact_error hp h)

/-- The loop faults in one of its iterations, at a run that those before it left. -/
theorem innerLoop_error {p : Params} {P : Run → Prop}
    (keep : ∀ r r', P r → r.obj.b < (r.obj.m : Int) → iteration p r = .ok r' → P r') {fuel : Nat} {r : Run}
    {e : FaultCode × Sync} (hr : P r) (h : innerLoop p fuel r = some (.error e)) :
    ∃ r', P r' ∧ r'.obj.b < (r'.obj.m : Int) ∧ iteration p r' = .error e := by
  induction fuel generalizing r with
  | zero => cases h
  | succ fuel ih =>
    rw [innerLoop_succ] at h
    split at h
    · next hlt =>
      cases hi : iteration p r with
      | error e' =>
        rw [hi] at h
        cases h
        exact ⟨r, hr, hlt, hi⟩
      | ok r₁ =>
        rw [hi] at h
        exact ih (keep r r₁ hr hlt hi) h
    · cases h

/-- Under exact `NUM` a STEP faults in its loop alone. -/
theorem stepBody_exact_error {p : Params} (hp : p.num = .exact) {o : Sync} {x : Value} {e : FaultCode × Sync}
    (h : stepBody p o x = some (.error e)) :
    innerLoop p (loopFuel p) { obj := pushSample o x, outs := [] } = some (.error e) := by
  unfold stepBody at h
  split at h
  · cases h
  · next e' hloop =>
    cases h
    exact hloop
  · rw [wrap_exact hp] at h
    cases h

/-- A batch faults in one of its STEPs, at an object that those before it left. -/
theorem stepMany_error {p : Params} {J : Sync → Prop}
    (keep : ∀ o x r, J o → stepBody p o x = some (.ok r) → J r.obj) {r : Run} {xs : List Value}
    {e : FaultCode × Sync} (hr : J r.obj) (h : stepMany p r xs = some (.error e)) :
    ∃ o x, J o ∧ stepBody p o x = some (.error e) := by
  induction xs generalizing r with
  | nil => cases h
  | cons x xs ih =>
    unfold stepMany at h
    split at h
    · cases h
    · next hbody =>
      cases h
      exact ⟨r.obj, x, hr, hbody⟩
    · next r₁ hbody => exact ih (r := { obj := r₁.obj, outs := r.outs ++ r₁.outs }) (keep _ x r₁ hr hbody) h

/-- The codes a batch can raise under exact `NUM`. -/
theorem stepMany_exact_error {p : Params} (hp : p.num = .exact) {r : Run} {xs : List Value} {c : FaultCode} {o : Sync}
    (h : stepMany p r xs = some (.error (c, o))) : c ∈ stepCodes ∨ c = .bankIndexOutOfRange := by
  obtain ⟨o', x, -, hbody⟩ := stepMany_error (J := fun _ => True) (fun _ _ _ _ _ => trivial) trivial h
  obtain ⟨r', -, -, hi⟩ := innerLoop_error (P := fun _ => True) (fun _ _ _ _ _ => trivial) trivial
    (stepBody_exact_error hp hbody)
  exact (iteration_exact_error hp hi).imp_right And.left

/-- The codes a batch can raise from a phase of the invariant: no bank index is out of range. -/
theorem stepMany_exact_error_of_phaseOk {p : Params} (hp : p.num = .exact) {r : Run} {xs : List Value} {c : FaultCode}
    {o : Sync} (hr : PhaseOk p r.obj) (h : stepMany p r xs = some (.error (c, o))) : c ∈ stepCodes := by
  obtain ⟨o', x, ho', hbody⟩ := stepMany_error (J := PhaseOk p) (fun _ _ _ ho hb => stepBody_phaseOk hp ho hb) hr h
  obtain ⟨r', hr', hlt, hi⟩ := innerLoop_error (P := fun r => PhaseOk p r.obj)
    (fun _ _ hr hlt hi => iteration_phaseOk hp hr hlt hi) (ho'.pushed x) (stepBody_exact_error hp hbody)
  obtain hc | ⟨-, hout⟩ := iteration_exact_error hp hi
  · exact hc
  · exact absurd ⟨hr'.b_nonneg, hlt⟩ hout

/-- A fault of a command on an object is the front end's, or its body's. -/
theorem onObject_fault {i : Instr} {s t : State} {body : Sync → Ending} {c : FaultCode}
    (h : onObject i s body = .next t) (hs : s.fault = none) (hc : t.fault = some c) :
    c = .malformedCommand ∧ operandsOk s.params i s.operands = false ∨ c = .notConfigured ∨
      ∃ o o', s.obj = some o ∧ body o = .fault c o' := by
  obtain ⟨rfl, hbad⟩ | ⟨rfl, -⟩ | ⟨o, hobj, -, hfin⟩ := onObject_next h
  · cases hc
    exact .inl ⟨rfl, hbad⟩
  · cases hc
    exact .inr (.inl rfl)
  · obtain ⟨o', p, -, rfl⟩ | ⟨-, rfl⟩ | ⟨e, o', -, rfl⟩ | ⟨c', o', hb, rfl⟩ := finish_next hfin
    · cases hs.symm.trans hc
    · cases hs.symm.trans hc
    · cases hs.symm.trans hc
    · cases hc
      exact .inr (.inr ⟨o, o', hobj, hb⟩)

theorem endOutputs_eq_fault {x : Option (Writes Run)} {c : FaultCode} {o : Sync} (h : endOutputs x = .fault c o) :
    x = some (.error (c, o)) := by
  match x with
  | none => cases h
  | some (.ok r) => cases h
  | some (.error e) =>
    cases h
    rfl

theorem createBody_exact_fault {s : State} (hp : s.params.num = .exact) (k m len : Nat) (h : List Value) :
    (createBody k m len h s).fault = s.fault := by
  cases hcheck : createCheck k m len with
  | some e =>
    rw [createBody, hcheck]
    rfl
  | none =>
    obtain ⟨dh, hdh⟩ := deriveProto_exact_ok hp h
    rw [createBody_exact hp hcheck hdh, answered_fault]

theorem rnyqBody_exact_fault {s : State} (hp : s.params.num = .exact) (k m ftype d : Nat) (beta : Rat) :
    (rnyqBody k m ftype d beta s).fault = s.fault := by
  unfold rnyqBody
  split
  · rfl
  · split
    · rfl
    · exact createBody_exact_fault hp ..

/-- A front end of a construction whose body raises no fault faults on its operands alone. -/
theorem inAnyMode_fault {i : Instr} {s t body : State} {c : FaultCode} (hbody : body.fault = none)
    (h : inAnyMode i s body = .next t) (hc : t.fault = some c) :
    c = .malformedCommand ∧ operandsOk s.params i s.operands = false := by
  rw [inAnyMode_eq] at h
  cases h
  split at hc
  · cases hbody.symm.trans hc
  · next hbad =>
    cases hc
    exact ⟨rfl, Bool.eq_false_iff.mpr hbad⟩

/-- A fault of a command under exact `NUM`: of its operands or `MODE`, a step that is not positive, or one of a
batch. -/
inductive ExactFault (i : Instr) (s : State) : FaultCode → Prop
  | malformed (h : operandsOk s.params i s.operands = false) : ExactFault i s .malformedCommand
  | notConfigured : ExactFault i s .notConfigured
  | nonPositive : ExactFault i s .nonPositiveStep
  | stepping {c : FaultCode} {o o' : Sync} (hobj : s.obj = some o)
      (h : stepMany s.params { obj := o, outs := [] } s.operands = some (.error (c, o'))) : ExactFault i s c

theorem onObject_exactFault {i : Instr} {s t : State} {body : Sync → Ending} {c : FaultCode}
    (h : onObject i s body = .next t) (hs : s.fault = none) (hc : t.fault = some c)
    (hbody : ∀ o o', s.obj = some o → body o = .fault c o' → ExactFault i s c) : ExactFault i s c := by
  obtain ⟨rfl, hbad⟩ | rfl | ⟨o, o', hobj, hb⟩ := onObject_fault h hs hc
  · exact .malformed hbad
  · exact .notConfigured
  · exact hbody o o' hobj hb

theorem execute_exactFault {nx : Nat} {s t : State} {c : FaultCode} (h : exec (.execute nx) s = .next t)
    (hs : s.fault = none) (hc : t.fault = some c) : ExactFault (.execute nx) s c :=
  onObject_exactFault h hs hc fun _ _ hobj hb => .stepping hobj (endOutputs_eq_fault hb)

/-- Every fault of a command under exact `NUM`. -/
theorem exec_exactFault {i : Instr} {s t : State} {c : FaultCode} (hp : s.params.num = .exact) (hs : s.fault = none)
    (h : exec i s = .next t) (hc : t.fault = some c) : ExactFault i s c := by
  cases i with
  | create k m len =>
    obtain ⟨rfl, hbad⟩ := inAnyMode_fault ((createBody_exact_fault hp ..).trans hs) h hc
    exact .malformed hbad
  | createRnyq k m ftype d =>
    obtain ⟨rfl, hbad⟩ := inAnyMode_fault ((rnyqBody_exact_fault hp ..).trans hs) h hc
    exact .malformed hbad
  | destroy | lock | unlock | getTau | print => exact onObject_exactFault h hs hc fun _ _ _ hb => by cases hb
  | reset =>
    refine onObject_exactFault h hs hc fun o _ _ hb => ?_
    rw [resetObject_exact hp] at hb
    cases hb
  | setRate =>
    refine onObject_exactFault h hs hc fun o _ _ hb => ?_
    obtain hnonpos | hpos := le_or_gt (numberOperand s.operands) 0
    · rw [setRateBody_of_nonpos o hnonpos] at hb
      cases hb
      exact .nonPositive
    · rw [setRateBody_exact o hp hpos] at hb
      cases hb
  | setOutputRate kOut =>
    refine onObject_exactFault h hs hc fun o _ _ hb => ?_
    split at hb
    · cases hb
    · rw [setOutputRateBody_exact o hp] at hb
      cases hb
  | setLoopBw =>
    refine onObject_exactFault h hs hc fun o _ _ hb => ?_
    unfold setLoopBwBody at hb
    split at hb
    · cases hb
    · rw [lfSetCoefficients_exact o hp] at hb
      cases hb
  | step =>
    cases execute_exactFault ((exec_execute_one s).trans h) hs hc with
    | malformed hbad => exact .malformed hbad
    | notConfigured => exact .notConfigured
    | nonPositive => exact .nonPositive
    | stepping hobj hmany => exact .stepping hobj hmany
  | execute nx => exact execute_exactFault h hs hc

/-- The table of R82 is what the operand check demands, where every number is an element of `R`. -/
theorem operandsOk_of_demanded {p : Params} {i : Instr} {ops : List Value} (hp : p.num = .exact)
    (hcount : ops.length = (demanded i).1) (hkind : ∀ v ∈ ops, v.kind = demandedKind (demanded i).2 p.types) :
    operandsOk p i ops = true := by
  rw [demanded_eq] at hcount hkind
  rw [demandedKind_eq] at hkind
  refine operandsOk_iff.mpr ⟨hcount, fun v hv => conforms_iff.mpr ⟨hkind v hv, ?_⟩⟩
  rw [hp]
  exact ⟨representable_exact _, representable_exact _⟩

/-- Settles O8: of the faults under exact `NUM` only that of the operand check is MalformedCommand. -/
theorem demandedOperandsAccepted : Obligations.DemandedOperandsAccepted := by
  intro i s t hp hs hcount hkind h hc
  cases exec_exactFault hp hs h hc with
  | malformed hbad => cases hbad.symm.trans (operandsOk_of_demanded hp hcount hkind)
  | stepping hobj hmany =>
    obtain hmem | hne := stepMany_exact_error hp hmany
    · simp [stepCodes] at hmem
    · cases hne

/-- Settles O51: a batch from the invariant raises its own three codes, and no other command more than its own. -/
theorem bankIndexInRange : Obligations.BankIndexInRange := by
  intro s t i hinv hs h
  have hcodes : ∀ c, t.fault = some c → c ≠ .bankIndexOutOfRange ∧ c ≠ .numericUndefined := fun c hc => by
    cases exec_exactFault hinv.exact hs h hc with
    | malformed | notConfigured | nonPositive => decide
    | stepping hobj hmany =>
      have hphase := (hinv.object hs _ hobj).phase
      have hmem := stepMany_exact_error_of_phaseOk hinv.exact hphase hmany
      exact ⟨fun he => by simp [he, stepCodes] at hmem, fun he => by simp [he, stepCodes] at hmem⟩
  exact ⟨fun hc => (hcodes _ hc).1 rfl, fun hc => (hcodes _ hc).2 rfl⟩

end Sys2Proof.Machine
end

section
/-! The invariant under exact `NUM` (10_state.md R43, R29, R36) is kept by every step. -/

namespace Sys2Proof.Machine

/-- A command on an object that raised no fault ended its body OK or with an error. -/
theorem onObject_unlatched {i : Instr} {s t : State} {body : Sync → Ending} {o o' : Sync}
    (h : onObject i s body = .next t) (ht : t.fault = none) (hobj : s.obj = some o) (hobj' : t.obj = some o') :
    (∃ p, body o = .ok o' p) ∨ ∃ e, body o = .error e o' := by
  obtain ⟨rfl, -⟩ | ⟨rfl, -⟩ | ⟨o₁, hobj₁, -, hfin⟩ := onObject_next h
  · cases ht
  · cases ht
  · cases hobj.symm.trans hobj₁
    obtain ⟨o₂, p, hb, rfl⟩ | ⟨-, rfl⟩ | ⟨e, o₂, hb, rfl⟩ | ⟨c, o₂, -, rfl⟩ := finish_next hfin
    · cases hobj'
      exact .inl ⟨p, hb⟩
    · cases hobj'
    · cases hobj'
      exact .inr ⟨e, hb⟩
    · cases ht

/-- The phase and the rates: what the invariant says beside the shape. -/
structure PhaseRateOk (p : Params) (o : Sync) : Prop where
  phase : PhaseOk p o
  rate : RateOk o

theorem fitsB_zero (p : Params) : fitsB p 0 = true := by
  have hpow : (0 : Int) < 2 ^ (p.bWidth - 1) := pow_pos two_pos _
  rw [fitsB_iff]
  omega

/-- The phase at the start: zero, at a positive step (42_lifecycle.md R163, R175). -/
theorem phaseOk_of_zero {p : Params} {o : Sync} (hdel : 0 < o.del) (htau : o.tau = 0) (hbf : o.bf = 0) (hb : o.b = 0) :
    PhaseOk p o where
  del_pos := hdel
  bf_eq := by rw [hbf, htau, zero_mul]
  bf_ge := by
    rw [hbf]
    norm_num
  b_eq := by
    have hhalf : ⌊(0 : Rat) + 1 / 2⌋ = 0 := Int.floor_eq_zero_iff.mpr ⟨by norm_num, by norm_num⟩
    rw [hb, hbf, floor_eq, hhalf]
  b_nonneg := hb.ge
  b_fits := hb ▸ fitsB_zero p

/-- The invariant of the object a construction leaves. -/
theorem freshObject_phaseRateOk {p : Params} (hparams : ParamsOk p) {k m : Nat} {h dh : List Value} (hk : 2 ≤ k) :
    PhaseRateOk p (freshObject p k m h dh) where
  phase := phaseOk_of_zero (Nat.cast_pos.mpr (by omega)) rfl rfl rfl
  rate := ⟨by rw [freshObject, Nat.cast_one], p.btInit, hparams.btInit_nonneg, hparams.btInit_le_one, rfl, rfl⟩

/-- STEP writes nothing of the rates. -/
theorem Stepped.rateOk {p : Params} {xs : List Value} {o o' : Sync} (h : Stepped p xs o o') (ho : RateOk o) :
    RateOk o' where
  rate_eq := by rw [h.rate_eq, h.kOut_eq, h.k_eq, ho.rate_eq]
  coeffs := h.lfB_eq ▸ h.lfA_eq ▸ ho.coeffs

theorem ShapeOk.k_kOut_pos {p : Params} {o : Sync} (h : ShapeOk p o) : (0 : Rat) < o.k ∧ (0 : Rat) < o.kOut := by
  have hk := h.k_ge
  have hkOut := h.kOut_ge
  exact ⟨Nat.cast_pos.mpr (by omega), Nat.cast_pos.mpr (by omega)⟩

section Commands
variable {p : Params} (hp : p.num = .exact) {o o' : Sync} (hshape : ShapeOk p o) (ho : PhaseRateOk p o)
include hp hshape ho

theorem resetObject_phaseRateOk (h : resetObject p o = .ok o') : PhaseRateOk p o' := by
  obtain ⟨hk, hkOut⟩ := hshape.k_kOut_pos
  rw [resetObject_exact hp] at h
  cases h
  refine ⟨phaseOk_of_zero (one_div_pos.mpr ?_) rfl rfl rfl, { ho.rate with }⟩
  rw [ho.rate.rate_eq]
  exact div_pos hkOut hk

omit hshape in
theorem setRateBody_phaseRateOk {r : Rat} (h : setRateBody p r o = .ok o') : PhaseRateOk p o' := by
  obtain hnonpos | hpos := le_or_gt r 0
  · rw [setRateBody_of_nonpos o hnonpos] at h
    cases h
  · rw [setRateBody_exact o hp hpos] at h
    cases h
    exact ⟨{ ho.phase with del_pos := one_div_pos.mpr hpos }, { ho.rate with }⟩

theorem setOutputRateBody_phaseRateOk {kOut : Nat} (hk : kOut ≠ 0) (h : setOutputRateBody p kOut o = .ok o') :
    PhaseRateOk p o' := by
  obtain ⟨hkpos, -⟩ := hshape.k_kOut_pos
  rw [setOutputRateBody_exact o hp] at h
  cases h
  exact ⟨{ ho.phase with del_pos := div_pos hkpos (Nat.cast_pos.mpr (Nat.pos_of_ne_zero hk)) },
    { ho.rate with rate_eq := rfl }⟩

omit hshape in
theorem lfSetCoefficients_phaseRateOk {bt : Rat} (h0 : 0 ≤ bt) (h1 : bt ≤ 1)
    (h : lfSetCoefficients p bt o = .ok o') : PhaseRateOk p o' := by
  rw [lfSetCoefficients_exact o hp] at h
  cases h
  exact ⟨{ ho.phase with }, { ho.rate with coeffs := ⟨bt, h0, h1, rfl, rfl⟩ }⟩

omit hshape in
theorem stepMany_phaseRateOk {xs us : List Value}
    (h : stepMany p { obj := o, outs := [] } xs = some (.ok { obj := o', outs := us })) : PhaseRateOk p o' := by
  obtain ⟨pushed, -, hstepped, -⟩ := stepMany_stepped h
  exact ⟨stepMany_phaseOk hp ho.phase h, hstepped.rateOk ho.rate⟩

end Commands

theorem endOk_ok {x : Writes Sync} {o : Sync} {p : Payload} (h : endOk x = .ok o p) : x = .ok o := by
  cases x <;> cases h
  rfl

theorem endOk_ne_error {x : Writes Sync} {e : ErrorCode} {o : Sync} : endOk x ≠ .error e o := by
  cases x <;> simp [endOk]

theorem endOutputs_ne_error {x : Option (Writes Run)} {e : ErrorCode} {o : Sync} : endOutputs x ≠ .error e o := by
  unfold endOutputs
  split <;> simp

/-- A body of writes that raised no fault wrote what is left. -/
theorem writes_of_unlatched {i : Instr} {s t : State} {writes : Sync → Writes Sync} {o o' : Sync}
    (h : onObject i s (fun o => endOk (writes o)) = .next t) (ht : t.fault = none) (hobj : s.obj = some o)
    (hobj' : t.obj = some o') : writes o = .ok o' := by
  obtain ⟨pl, hb⟩ | ⟨e, hb⟩ := onObject_unlatched h ht hobj hobj'
  · exact endOk_ok hb
  · exact absurd hb endOk_ne_error

/-- EXECUTE keeps the phase and the rates, where it ends without a fault. -/
theorem execute_phaseRateOk {nx : Nat} {s t : State} {o o' : Sync} (hp : s.params.num = .exact)
    (ho : PhaseRateOk s.params o) (h : exec (.execute nx) s = .next t) (ht : t.fault = none) (hobj : s.obj = some o)
    (hobj' : t.obj = some o') : PhaseRateOk s.params o' := by
  obtain ⟨pl, hb⟩ | ⟨e, hb⟩ := onObject_unlatched h ht hobj hobj'
  · obtain ⟨us, hmany, -⟩ := endOutputs_eq_ok hb
    exact stepMany_phaseRateOk hp ho hmany
  · exact absurd hb endOutputs_ne_error

/-- SET_OUTPUT_RATE keeps the phase and the rates, where it ends without a fault. -/
theorem setOutputRate_phaseRateOk {kOut : Nat} {s t : State} {o o' : Sync} (hp : s.params.num = .exact)
    (hshape : ShapeOk s.params o) (ho : PhaseRateOk s.params o) (h : exec (.setOutputRate kOut) s = .next t)
    (ht : t.fault = none) (hobj : s.obj = some o) (hobj' : t.obj = some o') : PhaseRateOk s.params o' := by
  obtain ⟨pl, hb⟩ | ⟨e, hb⟩ := onObject_unlatched h ht hobj hobj' <;> split at hb
  · cases hb
  · next hk => exact setOutputRateBody_phaseRateOk hp hshape ho hk (endOk_ok hb)
  · cases hb
    exact ho
  · exact absurd hb endOk_ne_error

/-- SET_LOOP_BW keeps the phase and the rates, where it ends without a fault. -/
theorem setLoopBw_phaseRateOk {s t : State} {o o' : Sync} (hp : s.params.num = .exact) (ho : PhaseRateOk s.params o)
    (h : exec .setLoopBw s = .next t) (ht : t.fault = none) (hobj : s.obj = some o) (hobj' : t.obj = some o') :
    PhaseRateOk s.params o' := by
  obtain hout | hin := em (numberOperand s.operands < 0 ∨ 1 < numberOperand s.operands)
  · obtain ⟨pl, hb⟩ | ⟨e, hb⟩ := onObject_unlatched h ht hobj hobj' <;>
      rw [setLoopBwBody_of_outside o hout] at hb <;> cases hb
    exact ho
  · obtain ⟨h0, h1⟩ := not_or.mp hin
    rw [not_lt] at h0 h1
    obtain ⟨pl, hb⟩ | ⟨e, hb⟩ := onObject_unlatched h ht hobj hobj' <;> rw [setLoopBwBody_of_inside o h0 h1] at hb
    · exact lfSetCoefficients_phaseRateOk hp ho h0 h1 (endOk_ok hb)
    · exact absurd hb endOk_ne_error

/-- Every command that does not construct keeps the phase and the rates, where it ends without a fault. -/
theorem exec_phaseRateOk {i : Instr} {s t : State} {o o' : Sync} (hi : ¬ Constructs i) (hp : s.params.num = .exact)
    (hshape : ShapeOk s.params o) (ho : PhaseRateOk s.params o) (h : exec i s = .next t) (ht : t.fault = none)
    (hobj : s.obj = some o) (hobj' : t.obj = some o') : PhaseRateOk s.params o' := by
  cases i with
  | create k m len => exact absurd (.inl ⟨k, m, len, rfl⟩) hi
  | createRnyq k m ftype d => exact absurd (.inr ⟨k, m, ftype, d, rfl⟩) hi
  | destroy => obtain ⟨pl, hb⟩ | ⟨e, hb⟩ := onObject_unlatched h ht hobj hobj' <;> cases hb
  | lock | unlock | getTau | print =>
    obtain ⟨pl, hb⟩ | ⟨e, hb⟩ := onObject_unlatched h ht hobj hobj' <;> cases hb
    exact ⟨{ ho.phase with }, { ho.rate with }⟩
  | reset => exact resetObject_phaseRateOk hp hshape ho (writes_of_unlatched h ht hobj hobj')
  | setRate => exact setRateBody_phaseRateOk hp ho (writes_of_unlatched h ht hobj hobj')
  | setOutputRate kOut => exact setOutputRate_phaseRateOk hp hshape ho h ht hobj hobj'
  | setLoopBw => exact setLoopBw_phaseRateOk hp ho h ht hobj hobj'
  | step => exact execute_phaseRateOk hp ho ((exec_execute_one s).trans h) ht hobj hobj'
  | execute nx => exact execute_phaseRateOk hp ho h ht hobj hobj'

/-- Every well-formed command keeps the invariant of the object, where it ends without a fault. -/
theorem exec_objectInv {i : Instr} {s t : State} (hwf : i.wf = true) (hinv : s.Inv) (hs : s.fault = none)
    (h : exec i s = .next t) (ht : t.fault = none) {o' : Sync} (hobj' : t.obj = some o') : ObjectInv s.params o' := by
  have hshape : ShapeOk s.params o' :=
    (exec_replied h).params_eq ▸ exec_shaped hwf (fun o hobj => (hinv.object hs o hobj).shape) h o' hobj'
  by_cases hi : Constructs i
  · obtain hobj | ⟨k, m, c, -, -, -, -, hcheck, hnew⟩ := exec_constructs_obj hi hwf h hobj'
    · exact hinv.object hs o' hobj
    · obtain ⟨dh, hdh⟩ := deriveProto_exact_ok hinv.exact c
      rw [newObject_exact hinv.exact hdh] at hnew
      cases hnew
      have hfresh := freshObject_phaseRateOk hinv.params (m := m) (h := c) (dh := dh) (createCheck_eq_none hcheck).1
      exact ⟨hshape, hfresh.phase, hfresh.rate⟩
  · cases hobj : s.obj with
    | none => cases (exec_obj_none hi h hobj).symm.trans hobj'
    | some o =>
      have ho := hinv.object hs o hobj
      have ho' := exec_phaseRateOk hi hinv.exact ho.shape ⟨ho.phase, ho.rate⟩ h ht hobj hobj'
      exact ⟨hshape, ho'.phase, ho'.rate⟩

/-- Settles O58: by the command the step runs; a decoded command fits its fields. -/
theorem stepKeepsInvariant : Obligations.StepKeepsInvariant := by
  intro s t hinv h
  have hparams := stepKeepsParameters s t h
  refine ⟨hparams ▸ hinv.params, hparams ▸ hinv.exact, fun ht o' hobj' => ?_⟩
  rw [hparams]
  obtain ⟨hs, ⟨-, rfl⟩ | ⟨c, rest, -, ⟨e, -, rfl⟩ | ⟨i, hd, hexec⟩⟩⟩ := step_next_exec h
  · exact hinv.object hs o' hobj'
  · cases ht
  · exact exec_objectInv (s := s.accept c rest) (encodeOfDecode _ _ hd).2 ⟨hinv.params, hinv.exact, hinv.object⟩ hs
      hexec ht hobj'

end Sys2Proof.Machine
end

section
/-! Runs at a fixed `DEL`, under exact `NUM`: while locked, or with the loop disabled at the nominal step, the phase
counts the outputs (41_stepping.md R139, R142, R145). -/

namespace Sys2Proof.Machine

/-- No iteration changes `DEL`: the object is locked, or its loop is disabled and `DEL` is the nominal step (R142). -/
def FixedStep (o : Sync) : Prop :=
  o.locked = true ∨ o.lfB = ⟨0, 0, 0⟩ ∧ o.del = (o.k : Rat) / (o.kOut : Rat)

theorem FixedStep.of_stepped {p : Params} {xs : List Value} {o o' : Sync} (h : Stepped p xs o o')
    (hdel : o'.del = o.del) (ho : FixedStep o) : FixedStep o' := by
  obtain hl | ⟨hlfB, hnominal⟩ := ho
  · exact .inl (h.locked_eq.trans hl)
  · exact .inr ⟨h.lfB_eq.trans hlfB, by rw [hdel, hnominal, h.k_eq, h.kOut_eq]⟩

/-- A disabled loop filter outputs zero. -/
theorem lfExec_disabled {lfA lfW w : Taps} {e q : Rat} (h : lfExec .exact ⟨0, 0, 0⟩ lfA lfW e = .ok (q, w)) :
    q = 0 := by
  rw [lfExec_exact] at h
  cases h
  ring

/-- At a fixed step an iteration skips, with no output and no advance, or outputs and advances by `DEL`. -/
theorem iteration_fixedStep {p : Params} (hp : p.num = .exact) (hskip : p.lockSkipCountsOutput = false) {r r' : Run}
    (hfix : FixedStep r.obj) (h : iteration p r = .ok r') :
    r'.obj.del = r.obj.del ∧
      (r'.obj.tau = r.obj.tau ∧ r'.outs.length = r.outs.length ∨
        r'.obj.tau = r.obj.tau + r.obj.del ∧ r'.outs.length = r.outs.length + 1) := by
  obtain ⟨mf, y, -, ⟨-, -, rfl⟩ | ⟨-, hl, o₁, o₂, hupdate, hadvance, rfl⟩ | ⟨-, o₂, hadvance, rfl⟩⟩ := iteration_ok h
  · refine ⟨rfl, .inl ⟨rfl, ?_⟩⟩
    simp only [lockedSkip, hskip, Bool.false_eq_true, if_false]
  · obtain ⟨_, e, q, w, nominal, d, -, -, hq, hnominal, hd, -, rfl⟩ := loopUpdate_ok hupdate
    obtain ⟨-, rfl⟩ := advance_exact_ok hp hadvance
    have hdel : d = r.obj.del := by
      obtain hlocked | ⟨hlfB, hfixed⟩ := hfix
      · cases hl.symm.trans hlocked
      · rw [hp, hlfB] at hq
        rw [hp] at hnominal hd
        cases hnominal
        cases hd
        rw [lfExec_disabled hq, add_zero, hfixed]
    subst hdel
    exact ⟨rfl, .inr ⟨rfl, List.length_append⟩⟩
  · obtain ⟨-, rfl⟩ := advance_exact_ok hp hadvance
    exact ⟨rfl, .inr ⟨rfl, List.length_append⟩⟩

/-- How a run at a fixed step stands to the object `o` it began at, `n` samples earlier: the phase moved by `DEL` an
output and back by 1 a sample, and the last output was computed with `BF + 1/2` below `limit`, that is with `B` below
it. -/
structure FixedRun (p : Params) (o : Sync) (n : Nat) (limit : Rat) (r : Run) : Prop where
  phase : PhaseOk p r.obj
  fixed : FixedStep r.obj
  m_eq : r.obj.m = o.m
  del_eq : r.obj.del = o.del
  tau_eq : r.obj.tau = o.tau + r.outs.length * o.del - n
  last : 0 < r.outs.length → (r.obj.tau - o.del) * o.m + 1 / 2 < limit

section
variable {p : Params} {o : Sync} (ho : PhaseOk p o) (hfix : FixedStep o) (limit : Rat)
include ho hfix

/-- A run begins with no outputs at its own object. -/
theorem FixedRun.start : FixedRun p o 0 limit { obj := o, outs := [] } :=
  ⟨ho, hfix, rfl, rfl, by simp, fun h => absurd h (lt_irrefl 0)⟩

theorem FixedRun.pushed (x : Value) : FixedRun p o 0 limit { obj := pushSample o x, outs := [] } :=
  ⟨ho.pushed x, hfix, rfl, rfl, by simp, fun h => absurd h (lt_irrefl 0)⟩

end

section
variable {p : Params} (hp : p.num = .exact) (hskip : p.lockSkipCountsOutput = false)
include hp hskip

theorem iteration_fixedRun {o : Sync} {n : Nat} {r r' : Run} (hr : FixedRun p o n o.m r)
    (hlt : r.obj.b < (r.obj.m : Int)) (h : iteration p r = .ok r') : FixedRun p o n o.m r' := by
  have hstepped := iteration_stepped p r
  rw [h, leftObj_ok] at hstepped
  obtain ⟨hdel, hmove⟩ := iteration_fixedStep hp hskip hr.fixed h
  refine ⟨iteration_phaseOk hp hr.phase hlt h, hr.fixed.of_stepped hstepped hdel, hstepped.m_eq.trans hr.m_eq,
    hdel.trans hr.del_eq, ?_, fun hpos => ?_⟩
  · obtain ⟨htau, hlen⟩ | ⟨htau, hlen⟩ := hmove <;> rw [htau, hlen, hr.tau_eq]
    rw [hr.del_eq]
    push_cast
    ring
  · obtain ⟨htau, hlen⟩ | ⟨htau, hlen⟩ := hmove <;> rw [htau]
    · exact hr.last (hlen ▸ hpos)
    · have hbelow := hr.phase.b_lt_m_iff.mp hlt
      rw [hr.phase.bf_eq, hr.m_eq] at hbelow
      rwa [hr.del_eq, add_sub_cancel_right]

/-- One STEP at a fixed step, from the object it begins at. -/
theorem stepBody_fixedRun {o : Sync} (ho : PhaseOk p o) (hfix : FixedStep o) {x : Value} {r : Run}
    (h : stepBody p o x = some (.ok r)) : FixedRun p o 1 0 r := by
  obtain ⟨r₁, hloop, rfl⟩ := stepBody_exact_ok hp h
  obtain ⟨hr₁, hexit⟩ := innerLoop_induct (fun _ _ hr hlt hi => iteration_fixedRun hp hskip hr hlt hi) _ _ _
    (FixedRun.pushed ho hfix o.m x) hloop
  refine ⟨hr₁.phase.wrapped hexit, hr₁.fixed, hr₁.m_eq, hr₁.del_eq, ?_, fun hpos => ?_⟩
  · change r₁.obj.tau - 1 = _
    rw [hr₁.tau_eq]
    push_cast
    ring
  · have hlast := hr₁.last hpos
    change (r₁.obj.tau - 1 - o.del) * o.m + 1 / 2 < 0
    linarith

/-- A batch at a fixed step continues the run it began with. -/
theorem stepMany_fixedRun {o : Sync} {n : Nat} {r r' : Run} {xs : List Value} (hr : FixedRun p o n 0 r)
    (h : stepMany p r xs = some (.ok r')) : FixedRun p o (n + xs.length) 0 r' := by
  induction xs generalizing r n with
  | nil =>
    cases h
    exact hr
  | cons x xs ih =>
    unfold stepMany at h
    split at h
    · cases h
    · cases h
    · next r₁ hbody =>
      have hr₁ := stepBody_fixedRun hp hskip hr.phase hr.fixed hbody
      have hm : (0 : Rat) ≤ o.m := Nat.cast_nonneg _
      have htau : r₁.obj.tau = r.obj.tau + r₁.outs.length * o.del - 1 := by
        rw [hr₁.tau_eq, hr.del_eq, Nat.cast_one]
      have hnext : FixedRun p o (n + 1) 0 { obj := r₁.obj, outs := r.outs ++ r₁.outs } := by
        refine ⟨hr₁.phase, hr₁.fixed, hr₁.m_eq.trans hr.m_eq, hr₁.del_eq.trans hr.del_eq, ?_, fun hpos => ?_⟩
        · dsimp only
          rw [htau, hr.tau_eq, List.length_append]
          push_cast
          ring
        · obtain hzero | hpos₁ := Nat.eq_zero_or_pos r₁.outs.length
          · rw [List.length_append, hzero, Nat.add_zero] at hpos
            have hlast := hr.last hpos
            rw [hzero, Nat.cast_zero, zero_mul, add_zero] at htau
            dsimp only
            rw [htau]
            linarith
          · have hlast := hr₁.last hpos₁
            rwa [hr.del_eq, hr.m_eq] at hlast
      have hcount : n + (x :: xs).length = n + 1 + xs.length := by
        rw [List.length_cons]
        omega
      exact hcount ▸ ih hnext h

end

/-- The count of the outputs at a fixed step from `TAU = 0`: the phase is at -1/2 or above after the last wrap, and the
last output was below it (R142). -/
theorem FixedRun.outs_length_eq {p : Params} {o : Sync} {n : Nat} {r : Run} (hr : FixedRun p o n 0 r) (htau : o.tau = 0)
    (hn : 1 ≤ n) (hm : 1 ≤ o.m) : (r.outs.length : Int) = ⌈((n : Rat) - 1 / (2 * (o.m : Rat))) / o.del⌉ := by
  have hdel : 0 < o.del := hr.del_eq ▸ hr.phase.del_pos
  have hm1 : (1 : Rat) ≤ o.m := Nat.one_le_cast.mpr hm
  have hm0 : (0 : Rat) < o.m := zero_lt_one.trans_le hm1
  have hhalf : 1 / (2 * (o.m : Rat)) * o.m = 1 / 2 := by
    field_simp
  have hbf := hr.phase.bf_ge
  rw [hr.phase.bf_eq, hr.m_eq, hr.tau_eq, htau] at hbf
  refine (Int.ceil_eq_iff.mpr ⟨?_, ?_⟩).symm
  · rw [lt_div_iff₀ hdel, Int.cast_natCast]
    obtain hzero | hpos := Nat.eq_zero_or_pos r.outs.length
    · have hn1 : (1 : Rat) ≤ n := Nat.one_le_cast.mpr hn
      have hsmall : 1 / (2 * (o.m : Rat)) ≤ 1 / 2 := one_div_le_one_div_of_le two_pos (by linarith)
      rw [hzero, Nat.cast_zero]
      linarith
    · have hlast := hr.last hpos
      rw [hr.tau_eq, htau] at hlast
      refine lt_of_mul_lt_mul_right ?_ hm0.le
      rw [sub_mul (n : Rat), hhalf]
      linarith
  · rw [div_le_iff₀ hdel, Int.cast_natCast]
    refine le_of_mul_le_mul_right ?_ hm0
    rw [sub_mul (n : Rat), hhalf]
    linarith

/-- Settles O47: the batch is a run at a fixed step from `TAU = 0`. -/
theorem fixedStepOutputCount : Obligations.FixedStepOutputCount := by
  intro s o o' nx n ys hp hobj hinv htau hnx hskip hfix h
  obtain ⟨hok, o₁, us, hobj₁, hmany, hout⟩ := exec_execute_answered_ok h
  cases hobj.symm.trans hobj₁
  obtain ⟨rfl, rfl⟩ := Payload.outputs.inj hout
  have hfixed : FixedStep o := by
    refine hfix.imp_right fun ⟨hc0, hnominal⟩ => ⟨?_, hnominal⟩
    obtain ⟨bt, -, -, hlfB, -⟩ := hinv.rate.coeffs
    rw [hlfB] at hc0 ⊢
    exact congrArg (Taps.mk · 0 0) hc0
  have hend := stepMany_fixedRun hp hskip (FixedRun.start hinv.phase hfixed 0) hmany
  have hcount : 0 + s.operands.length = nx := (Nat.zero_add _).trans (operandsOk_iff.mp hok).1
  exact (hcount ▸ hend).outs_length_eq htau hnx hinv.shape.m_ge

end Sys2Proof.Machine
end

section
/-! EXECUTE completes while locked, where one step fits (41_stepping.md R139, R145; 70_reset_and_hazards.md R265). -/

namespace Sys2Proof.Machine

/-- A locked object at a phase of the invariant, whose STEP fits: its outputs `OUT_CAP` and its advance `B_WIDTH`. -/
structure LockedFits (p : Params) (o : Sync) : Prop where
  phase : PhaseOk p o
  locked : o.locked = true
  slots : 1 ≤ o.del * (p.outCap : Rat)
  range : (o.m : Rat) * (1 + o.del) ≤ 2 ^ (p.bWidth - 1)

section
variable {p : Params} (hp : p.num = .exact) (hskip : p.lockSkipCountsOutput = false)
include hp

omit hp in
/-- The advance from below `M` fits. -/
theorem LockedFits.fitsB_nextBf {o o₁ : Sync} (ho : LockedFits p o) (ho₁ : PhaseOk p o₁) (hm : o₁.m = o.m)
    (hdel : o₁.del = o.del) (hlt : o₁.b < (o₁.m : Int)) : fitsB p (roundAway o₁.nextBf) = true := by
  have hgt := ho₁.nextBf_gt hlt
  have hbelow := ho₁.b_lt_m_iff.mp hlt
  have hrange := ho.range
  have hnonneg : 0 ≤ ⌊o₁.nextBf + 1 / 2⌋ := Int.floor_nonneg.mpr (show 0 ≤ o₁.nextBf + 1 / 2 by linarith)
  have hhigh : ⌊o₁.nextBf + 1 / 2⌋ < 2 ^ (p.bWidth - 1) := by
    rw [Int.floor_lt]
    push_cast
    rw [ho₁.nextBf_eq]
    rw [← hm, ← hdel, mul_add, mul_one, mul_comm _ o₁.del] at hrange
    linarith
  have hpow : (0 : Int) < 2 ^ (p.bWidth - 1) := pow_pos two_pos _
  rw [roundAway_eq_floor hgt, floor_eq, fitsB_iff]
  omega

omit hp in
/-- While `B` is below `M` a slot is left: `OUT_CAP` advances pass `M`. -/
theorem LockedFits.outs_length_lt {o : Sync} (ho : LockedFits p o) {r : Run} (hr : FixedRun p o 0 o.m r)
    (hlt : r.obj.b < (r.obj.m : Int)) : r.outs.length < p.outCap := by
  by_contra hfull
  have hcap : (p.outCap : Rat) ≤ r.outs.length := Nat.cast_le.mpr (not_lt.mp hfull)
  have hmoved : 1 ≤ r.outs.length * o.del := by
    have hmul := mul_le_mul_of_nonneg_left hcap ho.phase.del_pos.le
    have hslots := ho.slots
    linarith
  have hm : (o.m : Rat) ≤ r.outs.length * o.del * o.m := le_mul_of_one_le_left (Nat.cast_nonneg _) hmoved
  have hbelow := hr.phase.b_lt_m_iff.mp hlt
  have hbf := ho.phase.bf_ge
  rw [ho.phase.bf_eq] at hbf
  rw [hr.phase.bf_eq, hr.m_eq, hr.tau_eq, Nat.cast_zero, sub_zero, add_mul] at hbelow
  linarith

/-- No iteration of a STEP that fits faults. -/
theorem LockedFits.exists_iteration_ok {o : Sync} (ho : LockedFits p o) {r : Run} (hr : FixedRun p o 0 o.m r)
    (hl : r.obj.locked = true) (hlt : r.obj.b < (r.obj.m : Int)) : ∃ r', iteration p r = .ok r' := by
  obtain ⟨mf, hmf⟩ := hr.phase.bankExec_ok hp hlt r.obj.h r.obj.mfHist
  obtain ⟨y, hy, -⟩ := divValue_exact mf r.obj.k
  have hroom := ho.outs_length_lt hr hlt
  by_cases hdc : r.obj.dc = r.obj.kOut
  · exact ⟨_, iteration_of_locked hp hmf hroom hy hdc hl⟩
  · exact ⟨_, iteration_of_offTime hp hmf hroom hy hdc (ho.fitsB_nextBf hr.phase hr.m_eq hr.del_eq hlt)⟩

include hskip

/-- A STEP that fits does not fault. -/
theorem LockedFits.stepBody_ne_error {o : Sync} (ho : LockedFits p o) (x : Value) (e : FaultCode × Sync) :
    stepBody p o x ≠ some (.error e) := by
  intro h
  have keep : ∀ r r', (FixedRun p o 0 o.m r ∧ r.obj.locked = true) → r.obj.b < (r.obj.m : Int) →
      iteration p r = .ok r' → FixedRun p o 0 o.m r' ∧ r'.obj.locked = true := fun r r' ⟨hr, hl⟩ hlt hi => by
    have hstepped := iteration_stepped p r
    rw [hi, leftObj_ok] at hstepped
    exact ⟨iteration_fixedRun hp hskip hr hlt hi, hstepped.locked_eq.trans hl⟩
  obtain ⟨r, ⟨hr, hl⟩, hlt, hi⟩ := innerLoop_error keep ⟨.pushed ho.phase (.inl ho.locked) o.m x, ho.locked⟩
    (stepBody_exact_error hp h)
  obtain ⟨r', hok⟩ := ho.exists_iteration_ok hp hr hl hlt
  cases hi.symm.trans hok

omit hskip in
/-- The step after it fits too. -/
theorem LockedFits.stepBody_ok {o : Sync} (ho : LockedFits p o) {x : Value} {r : Run}
    (h : stepBody p o x = some (.ok r)) : LockedFits p r.obj := by
  have hstepped := stepBody_stepped h
  rw [leftObj_ok] at hstepped
  obtain ⟨hdel, -⟩ := hstepped.frozen ho.locked
  exact ⟨stepBody_phaseOk hp ho.phase h, hstepped.locked_eq.trans ho.locked, hdel ▸ ho.slots,
    hdel ▸ hstepped.m_eq ▸ ho.range⟩

/-- A batch of STEPs that fit ends. -/
theorem LockedFits.exists_stepMany_ok {o : Sync} (ho : LockedFits p o) (hk : 1 ≤ o.kOut) (xs : List Value) :
    ∃ r, stepMany p { obj := o, outs := [] } xs = some (.ok r) := by
  have hends := stepMany_ne_none (p := p) (r := { obj := o, outs := [] }) (xs := xs) hk
  obtain ⟨w, hw⟩ := Option.ne_none_iff_exists'.mp hends
  cases w with
  | ok r => exact ⟨r, hw⟩
  | error e =>
    obtain ⟨o₁, x, ho₁, hbody⟩ := stepMany_error (J := LockedFits p) (fun _ _ _ ho hb => ho.stepBody_ok hp hb) ho hw
    exact absurd hbody (ho₁.stepBody_ne_error hp hskip x e)

end

/-- A batch has at most `OUT_CAP` outputs a sample. -/
theorem stepMany_outs_length_le {p : Params} {r r' : Run} {xs : List Value} (h : stepMany p r xs = some (.ok r')) :
    r'.outs.length ≤ r.outs.length + xs.length * p.outCap := by
  induction xs generalizing r with
  | nil =>
    cases h
    exact Nat.le_add_right _ _
  | cons x xs ih =>
    unfold stepMany at h
    split at h
    · cases h
    · cases h
    · next r₁ hbody =>
      have hrest := ih h
      have hbody := stepBody_outs_length_le hbody
      rw [List.length_append] at hrest
      rw [List.length_cons, Nat.succ_mul]
      omega

/-- Settles O44: the batch ends, it is a run at a fixed step, and while locked STEP writes the histories, the phase and
`DC` alone. -/
theorem lockedExecuteCompletes : Obligations.LockedExecuteCompletes := by
  intro s o nx hp hobj hinv hok hl hskip hslots hrange
  have hfits : LockedFits s.params o := ⟨hinv.phase, hl, hslots, hrange⟩
  obtain ⟨r, hmany⟩ := hfits.exists_stepMany_ok hp hskip hinv.shape.kOut_ge s.operands
  have hcount : s.operands.length = nx := (operandsOk_iff.mp hok).1
  have hend := stepMany_fixedRun hp hskip (FixedRun.start hinv.phase (.inl hl) 0) hmany
  have houts := stepMany_outs_length_le hmany
  obtain ⟨pushed, -, hstepped, hall⟩ := stepMany_stepped hmany
  obtain rfl := hall r rfl
  obtain ⟨-, htauDecim, hlfW⟩ := hstepped.frozen hl
  rw [leftObj_ok] at hstepped htauDecim hlfW
  have htau : r.obj.tau = o.tau + r.outs.length * o.del - nx := by
    rw [hend.tau_eq, Nat.zero_add, hcount]
  have hleft : r.obj = { o with
      mfHist := s.operands.foldl bankPush o.mfHist, dmfHist := s.operands.foldl bankPush o.dmfHist
      tau := o.tau + r.outs.length * o.del - nx, bf := r.obj.bf, b := r.obj.b, dc := r.obj.dc } := by
    rw [← htau, ← hstepped.mfHist, ← hstepped.dmfHist]
    have hframe := Sync.eq_of_setup_eq hstepped.setup
    rwa [hend.del_eq, htauDecim, hlfW] at hframe
  refine ⟨r.outs, r.obj.bf, r.obj.b, r.obj.dc, ?_, ?_, hend.phase.b_eq, ?_⟩
  · rw [← hleft]
    exact exec_execute_of_stepMany_ok hok hobj hmany
  · rw [hend.phase.bf_eq, htau, hend.m_eq]
  · rw [List.length_nil, Nat.zero_add, hcount] at houts
    exact houts

end Sys2Proof.Machine
end
